-- ==== Sys2Proof/Word.lean ====
section
/-! DEFINITION. The words and numbered things of the TFG-440: bytes, digests, certificate serials, keys, and the
numbers of ports, tags and staging windows (00_scope.md, "Conventions"). -/

namespace Sys2Proof

/-- One byte of a frame, a record or the flash. -/
abbrev Byte := BitVec 8

/-- The value of DIGEST: a fixed 256-bit hash (00_scope.md). -/
abbrev Digest := BitVec 256

/-- A certificate serial: four bytes (1.4, SERIAL). -/
abbrev Serial := BitVec 32

/-- A public key or a signature: a string of 512 bytes (1.4, 11.1). -/
abbrev Key := List Byte

/-- Controller ports 0..3. -/
abbrev PortId := Fin 4

/-- Tags 0..7. -/
abbrev Tag := Fin 8

/-- Staging windows S0 and S1. -/
abbrev StagingId := Fin 2

end Sys2Proof
end

