-- ==== Sys2Proof/Syntax.lean ====
section
/-! DEFINITION. The commands and events of spec/opcode_table.json, one constructor a row, in the table's order.
The table gives no row any bits and no operand fields: the operands are what the rule of the row says the step
depends on and the part itself does not hold (which port, the arguments of the frame, the bytes the flash sends). -/

namespace Sys2Proof

/-- How a READ of the walker, the seal check or the directory ends at its requester (R2, R23, R24, R38, R113).

`complete bytes`: the READ completes. `bytes` are the first bytes the flash port delivered, in address order;
where the list ends before the READ does, the flash delivered what it stores (log entry 2).
`fault`: the READ ends FAULT (R121): the flash RESET that follows its second time-out ends (log entry 3). -/
inductive ReadEnd where
  | complete (bytes : List Byte)
  | fault
  deriving DecidableEq, Repr

/-- The commands and events of the TFG-440. -/
inductive Instr where
  /-- The power-on reset input (R163). -/
  | powerOnReset
  /-- The one-time store has loaded its rows (R191). -/
  | otsLoadComplete
  /-- The directory read ends (R2, R3). -/
  | directoryReadEnd (result : ReadEnd)
  /-- A 2048-byte probe of the walker ends (R23). -/
  | probeReadEnd (result : ReadEnd)
  /-- The walker's 8192-byte manifest read or re-read ends (R24). -/
  | manifestReadEnd (result : ReadEnd)
  /-- The certificate SIGCHECK of the current key job ends (R29). -/
  | certSigcheckEnd
  /-- The manifest SIGCHECK of the current key job ends (R29). -/
  | manifestSigcheckEnd
  /-- The seal check record's 8192-byte manifest read ends (R38). -/
  | sealManifestReadEnd (result : ReadEnd)
  /-- The running 2048-byte group READ completes (R73). -/
  | groupReadEnd (bytes : List Byte)
  /-- The running page READ or continuation completes (R76). `bytes` start after the bytes already delivered. -/
  | pageReadEnd (bytes : List Byte)
  /-- The running page READ reaches its next 512-byte boundary, having delivered `bytes` since the last (R100). -/
  | parkBoundary (bytes : List Byte)
  /-- The running RAW read delivers its last byte (R53). `bytes` start after the bytes already delivered. -/
  | rawReadEnd (bytes : List Byte)
  /-- The running ERASE completes (R115). -/
  | eraseComplete
  /-- The running PROGRAM completes (R183). -/
  | programComplete
  /-- The flash acknowledges SUSPEND; `finished` when the erase had already finished (R114). -/
  | suspendAck (finished : Bool)
  /-- The running READ reaches 5 ms (R118). `bytes` are the bytes a RAW read had delivered by then, after
  those delivered before. -/
  | readTimeout (bytes : List Byte)
  /-- The running PROGRAM reaches 3 ms (R119). -/
  | programTimeout
  /-- The running ERASE reaches 3000 ms of ERASING time (R119). -/
  | eraseTimeout
  /-- SUSPEND stays unacknowledged for 1 ms (R119). -/
  | suspendTimeout
  /-- The 100 µs flash RESET ends (R120). -/
  | resetEnd
  /-- The running row write of the one-time store completes (R191). -/
  | rowWriteComplete
  /-- The holdoff timer of a port expires (R144). -/
  | holdoffExpiry (port : PortId)
  /-- The deadline timer of a port expires (R157). -/
  | deadlineExpiry (port : PortId)
  /-- Select becomes inactive on a port (R130). -/
  | selectRelease (port : PortId)
  /-- A whole frame of unknown code or disallowed argument length reaches a port (R132). -/
  | frameRefused (port : PortId) (code : Byte) (args : List Byte)
  /-- A whole READ frame reaches a port (R135). -/
  | read (port : PortId) (offset : BitVec 24) (length : BitVec 16)
  /-- A whole SET-EXT frame reaches a port (R136). -/
  | setExt (port : PortId) (value : Byte)
  /-- A whole STATUS frame reaches a port (R137). -/
  | status (port : PortId)
  /-- A whole NOTICE-READ frame reaches a port (R147). -/
  | noticeRead (port : PortId)
  /-- A whole NOTICE-MASK frame reaches a port (R146). -/
  | noticeMask (port : PortId) (mask : Byte)
  /-- A whole VIOLATION-READ frame reaches a port (R140). -/
  | violationRead (port : PortId)
  /-- A whole REPORT frame reaches a port (R138). -/
  | report (port : PortId)
  /-- A whole BOOT-DONE frame reaches a port (R155). -/
  | bootDone (port : PortId)
  /-- A whole REPORT-CLEAR frame reaches a port (R139). -/
  | reportClear (port : PortId)
  /-- A whole STAGE-OPEN frame reaches a port (R181). -/
  | stageOpen (port : PortId) (tag : Byte)
  /-- A whole STAGE-ERASE frame reaches a port (R182). -/
  | stageErase (port : PortId) (window : Byte) (sector : BitVec 16)
  /-- A whole STAGE-WRITE frame reaches a port (R183). -/
  | stageWrite (port : PortId) (window : Byte) (offset : BitVec 32) (data : List Byte)
  /-- A whole SEAL frame reaches a port (R185). -/
  | sealWindow (port : PortId) (window : Byte)
  /-- A whole STAGE-CLOSE frame reaches a port (R187). -/
  | stageClose (port : PortId) (window : Byte)
  /-- A whole COMMIT frame reaches a port (R189). -/
  | commit (port : PortId) (tag : Byte)
  /-- A whole REVOKE frame reaches a port (R194). -/
  | revoke (port : PortId) (serial : Serial)
  /-- A whole RETIRE-ROOT frame reaches a port (R193). -/
  | retireRoot (port : PortId) (rootIndex : Byte)
  /-- A whole PROVISION frame reaches a port (R197): the 56-byte config record and the root keys. -/
  | provision (port : PortId) (config : List Byte) (keys : List Key)
  /-- A whole RESTART frame reaches a port (R162). -/
  | restart (port : PortId)
  /-- One byte of a frame reaches a port (R128). -/
  | frameByteReceived (port : PortId) (byte : Byte)
  /-- The controller of a port clocks in one byte (R129). Where it is the next byte of a running RAW READ, the flash has
  delivered it by then (R53; log entry 14). -/
  | responseByteClockedIn (port : PortId)
  deriving DecidableEq, Repr

end Sys2Proof
end

