-- ==== Sys2Proof/Decode.lean ====
section
/-! DEFINITION. The word decoder the host asks for. spec/opcode_table.json gives no row any bits (every row's
"fields" is empty and no row has "fixed"), so no word spells a command. The bytes of a port frame are decoded in
Machine/Operands.lean (`parseFrame`), from the command table of 1.5. -/

namespace Sys2Proof

/-- No row of the table gives bits: no word spells a command. -/
def decodeTableWord (_nbits _w : Nat) : Option Instr := none

end Sys2Proof
end

