-- ==== Sys2Proof/Config.lean ====
section
/-! DEFINITION. What the spec gives by contract only, and the values it leaves open. None of these has a body, so
no proof can see which value it is; a claim that holds, holds whatever they are. -/

namespace Sys2Proof.Config

/-- DIGEST of a byte string taken in address order (00_scope.md: fixed, 256 bits, the same input gives the same
result; its internals are outside the manual). -/
opaque digest : List Byte → Digest

/-- SIGCHECK of a public key, a digest and a signature: pass or fail (00_scope.md: the same inputs give the same
result; its internals are outside the manual). -/
opaque sigCheck : Key → Digest → Key → Bool

/-- FREE VALUE. What the flash leaves at an address after an ERASE or PROGRAM that did not complete (R119, R125), in the
sector of an erase while it is SUSPENDED (R115), and in the bits a PROGRAM cannot raise (R109). The first argument is the
count of such occasions so far (`State.freeCount`), so that no two occasions share a value. -/
opaque flashResidue : Nat → Nat → Byte

end Sys2Proof.Config
end

