-- ==== Sys2Proof/Machine/State.lean ====
section
/-! DEFINITION. Everything the spec gives the TFG-440 to hold, block by block (00_scope.md, "Blocks and how they
work together"), as plain data, and the part right after reset. -/

namespace Sys2Proof.Machine

/-! ## Names of states, reasons, classes (Table 1-1) -/

/-- The two image slots of a tag. -/
inductive SlotId where
  | a | b
  deriving DecidableEq, Repr

/-- Reasons of Table 1-1. `none` is NONE: no failing check recorded, and VALID in the directory view. -/
inductive Reason where
  | none | noDirectory | noSlot | layout | format | tagMismatch | slotMismatch | loadMismatch | belowFloor
  | rootUnusable | certRevoked | mapFull | certSignature | manifestSignature | flashFault | groupMismatch
  | pageMismatch | discarded
  deriving DecidableEq, Repr

/-- States of an image window (R41, R42). -/
inductive WindowState where
  | unused | checking | accepted | rejected | failed
  deriving DecidableEq, Repr

/-- States of a staging window (R46, R180). -/
inductive StagingState where
  | free | opened | sealing | sealed | sealFailed | discarded
  deriving DecidableEq, Repr

/-- States of a page in the page state map (R65). -/
inductive PageState where
  | unchecked | good | bad
  deriving DecidableEq, Repr

/-- Port states (R148). -/
inductive PortState where
  | unused | held | prefetch | running | confirmed | faulted
  deriving DecidableEq, Repr

/-- Port roles (Table 1-1); a port without a role has `Option.none`. -/
inductive Role where
  | formatter | engine | panel | scanfax
  deriving DecidableEq, Repr

/-- Deadline actions (Table 1-1). -/
inductive DeadlineAction where
  | none | notice | fallback | system
  deriving DecidableEq, Repr

/-- On-fail actions (Table 1-1). -/
inductive OnFail where
  | hold | keep
  deriving DecidableEq, Repr

/-- Classes of fill records and flash requests, highest first (R111). -/
inductive OpClass where
  | demand | prefetch | walker | staging | sweep
  deriving DecidableEq, Repr

/-- The op kind of a timeout record (R122). -/
inductive TimeoutKind where
  | read | program | erase | suspend
  deriving DecidableEq, Repr

/-- The blocks that make flash requests (Table 1-1). -/
inductive Requester where
  | pageBuffer | integrity | manifest | window
  deriving DecidableEq, Repr

/-- Restart causes (Table 1-1). -/
inductive Cause where
  | powerOn | command | deadline
  deriving DecidableEq, Repr

/-- Violation kinds (R59). -/
inductive ViolationKind where
  | outside | withheld | command | writeOutside
  deriving DecidableEq, Repr

/-- Results of a READ byte, in the order of R13 and R57. -/
inductive ReadResult where
  | ok | raw | withheld | outside | fault
  deriving DecidableEq, Repr

/-- Refusal codes of the command response (R14, R133); `fault` is code 0, the fault response of R183. -/
inductive RefusalCode where
  | fault | frame | notPermitted | state | range | full | guard | exhausted | busy
  deriving DecidableEq, Repr

/-- A window as the key of a fill record or a group cache entry (R67, R88). -/
inductive WindowKey where
  | image (tag : Tag)
  | staging (win : StagingId)
  deriving DecidableEq, Repr

/-! ## One-time store (chapter 11) -/

/-- A port's part of the config record (Table 1-6). `deadline` counts units of 100 ms; 0 is none. -/
structure PortConfig where
  role : Option Role
  deadline : Nat
  action : DeadlineAction
  onFail : OnFail
  deriving DecidableEq, Repr

/-- A tag's part of the config record (Table 1-6). -/
structure TagConfig where
  bound : Option PortId
  boot : Bool
  printRequired : Bool
  checkBeforeRelease : Bool
  loadBase : Nat
  deriving DecidableEq, Repr

/-- The config record as the other blocks read it (R192). -/
structure ConfigRecord where
  ports : Vector PortConfig 4
  tags : Vector TagConfig 8
  holdoff : Nat
  dMin : Nat
  dMax : Nat
  flashSectors : Nat
  deriving DecidableEq, Repr

/-- A row write of the one-time store, with its content (11.1). -/
inductive RowContent where
  | config (bytes : List Byte)
  | rootKey (r : Fin 4) (key : Key)
  | retire (r : Fin 4)
  | revocation (serial : Serial)
  | floor (tag : Tag) (version : Nat)
  deriving DecidableEq, Repr

/-- A queued or running row write: the row with its content, and the port whose command asked for it with the
command's code. `source` is none once a part restart has taken the command's response away (R162). -/
structure RowWrite where
  row : RowContent
  source : Option (PortId × Byte)
  deriving DecidableEq, Repr

/-- The OTS controller: the rows and the row-write queue (R191). Revocation and floor rows are written in
ascending order (R194, R195), so the written ones are a list; every row after the list is BLANK. -/
structure Ots where
  config : Option (List Byte)
  rootKeys : Vector (Option Key) 4
  retired : Vector Bool 4
  revoked : List Serial
  floors : Vector (List Nat) 8
  queue : List RowWrite
  running : Option RowWrite
  deriving DecidableEq, Repr

/-! ## Flash controller (chapter 6) -/

/-- What a flash request is for: its op kind, its requesting block and where its bytes go (R109, R110). -/
inductive Purpose where
  | directory
  | probe (slot : SlotId)
  | walkerManifest
  | sealManifest
  | group (entry : Fin 8)
  | page (win : WindowKey) (page : Nat)
  | raw (port : PortId)
  | program (port : PortId) (data : List Byte)
  | erase (port : PortId)
  deriving DecidableEq, Repr

/-- A flash request (R110). `live` is false once its requester has withdrawn its interest and its data will be
discarded (R113). -/
structure FlashRequest where
  purpose : Purpose
  addr : Nat
  len : Nat
  cls : OpClass
  live : Bool
  deriving DecidableEq, Repr

/-- The current op (6.1): its request, bytes delivered, RETRY-USED, and the clock step it runs at (R113). -/
structure CurrentOp where
  req : FlashRequest
  delivered : Nat
  retryUsed : Bool
  step : Nat
  deriving DecidableEq, Repr

/-- What follows a flash RESET (R118, R119, R120). -/
inductive AfterReset where
  /-- the RESET after a reset of the part: the first pick -/
  | first
  /-- a READ that timed out once: it starts again -/
  | retryRead (c : CurrentOp)
  /-- a READ that timed out twice: it ends FAULT -/
  | failRead (c : CurrentOp)
  /-- a PROGRAM that timed out -/
  | failProgram (r : FlashRequest)
  /-- an ERASE that timed out, or whose SUSPEND did -/
  | failErase (r : FlashRequest) (bySuspend : Bool)
  deriving DecidableEq, Repr

/-- What occupies the flash port: nothing, an op, or a RESET (R109, R120). -/
inductive FlashPort where
  | idle
  | op (c : CurrentOp)
  | reset (after : AfterReset)
  deriving DecidableEq, Repr

/-- The erase state with the erase's request (6.1, R114, R115). -/
inductive EraseState where
  | none
  | erasing (r : FlashRequest)
  | suspending (r : FlashRequest)
  | suspended (r : FlashRequest)
  deriving DecidableEq, Repr

/-- The five class queues, each FIFO (R110, R111). -/
structure ClassQueues where
  demand : List FlashRequest
  prefetch : List FlashRequest
  walker : List FlashRequest
  staging : List FlashRequest
  sweep : List FlashRequest
  deriving DecidableEq, Repr

/-- The timeout record (R122). Empty when `kind` is none. -/
structure TimeoutRecord where
  kind : Option TimeoutKind
  addr : Nat
  cls : OpClass
  requester : Option Requester
  further : Nat
  deriving DecidableEq, Repr

/-- The flash controller (6.1). -/
structure FlashCtl where
  queues : ClassQueues
  port : FlashPort
  erase : EraseState
  step : Nat
  timeout : TimeoutRecord
  deriving DecidableEq, Repr

/-! ## Manifest unit and key engine (chapter 2) -/

/-- One tag's record of the directory view (R5). A base is meaningful where the reason is `Reason.none` (VALID). -/
structure DirectoryRecord where
  slotSize : Nat
  baseA : Nat
  baseB : Nat
  reasonA : Reason
  reasonB : Reason
  deriving DecidableEq, Repr

/-- Kinds of tag-queue entries (R17). -/
inductive EntryKind where
  | first | recheck
  deriving DecidableEq, Repr

/-- Walker phases (R17). -/
inductive WalkerPhase where
  | idle | directory | waitBuffer | probe | read | sign
  deriving DecidableEq, Repr

/-- The holder of the manifest buffer (R17). -/
inductive Holder where
  | none | walker | sealCheck
  deriving DecidableEq, Repr

/-- Phases of the seal check record (R17). -/
inductive SealPhase where
  | waitBuffer | read | sign
  deriving DecidableEq, Repr

/-- The source of a key job (R28). -/
inductive JobSource where
  | walker
  | sealCheck (win : StagingId)
  deriving DecidableEq, Repr

/-- A key job: its own copy of all it needs (R28). `dropped` when its seal left SEALING (R30). -/
structure KeyJob where
  source : JobSource
  rootIndex : Fin 4
  certDigest : Digest
  certSignature : Key
  subordinateKey : Key
  manifestDigest : Digest
  signature : Key
  dropped : Bool
  deriving DecidableEq, Repr

/-- Which SIGCHECK of the current job runs (R29). -/
inductive SigPhase where
  | certificate | manifest
  deriving DecidableEq, Repr

/-- The key engine: a queue of 2 jobs and one current job (R29). -/
structure KeyEngine where
  queue : List KeyJob
  current : Option (KeyJob × SigPhase)
  deriving DecidableEq, Repr

/-- The seal check record (R17, R38). `cancelled` while a dropped job keeps the record (R40); `waitingJob` while a
job waits for a dropped one to leave the engine (R30). -/
structure SealCheck where
  win : StagingId
  phase : SealPhase
  reRead : Bool
  pageCount : Nat
  pageAreaOffset : Nat
  cancelled : Bool
  waitingJob : Option KeyJob
  deriving DecidableEq, Repr

/-- The walker (R17). The candidate list is `candidates`, the current one first; `probeA` is the probe VERSION of
slot A while slot B is being probed (none when the probe faulted). -/
structure Walker where
  phase : WalkerPhase
  entry : Option (Tag × EntryKind)
  candidates : List SlotId
  probeA : Option Nat
  reRead : Bool
  deriving DecidableEq, Repr

/-- The manifest unit (R17). -/
structure ManifestUnit where
  view : Option (Vector DirectoryRecord 8)
  tagQueue : List (Tag × EntryKind)
  walker : Walker
  buffer : List Byte
  holder : Holder
  sealRequests : List StagingId
  sealCheck : Option SealCheck
  filter : BitVec 64
  deriving DecidableEq, Repr

/-! ## Window unit (chapter 3) -/

/-- A range of the page state map (R41). -/
structure MapRange where
  start : Nat
  length : Nat
  deriving DecidableEq, Repr

/-- An image window (R41). FALLBACK-USED is held by the lifecycle unit. -/
structure ImageWindow where
  state : WindowState
  owner : Option PortId
  boot : Bool
  printRequired : Bool
  checkBeforeRelease : Bool
  loadBase : Nat
  slot : Option SlotId
  former : Option SlotId
  version : Nat
  serial : Serial
  pageCount : Nat
  pageBase : Nat
  groupBase : Nat
  range : Option MapRange
  good : Nat
  bad : Nat
  cursor : Nat
  touched : Bool
  reasonA : Reason
  reasonB : Reason
  digests : List Digest
  deriving DecidableEq, Repr

/-- A staging window (R46). -/
structure StagingWindow where
  state : StagingState
  tag : Tag
  slot : Option SlotId
  base : Nat
  sizePages : Nat
  written : Bool
  warned : Bool
  reason : Reason
  firstBad : Option Nat
  checked : Nat
  digests : List Digest
  deriving DecidableEq, Repr

/-- The window unit: the window table and the page state map (R41, R46, R65). The map lists, by entry number
ascending, the entries that are not UNCHECKED; `mapUsed` entries are allocated from the low end (R34). -/
structure WindowUnit where
  image : Vector ImageWindow 8
  staging : Vector StagingWindow 2
  pageMap : List (Nat × PageState)
  mapUsed : Nat
  deriving DecidableEq, Repr

/-! ## Integrity unit (chapter 4) -/

/-- States of a group cache entry (R67). -/
inductive EntryState where
  | free | filling | valid | dropped
  deriving DecidableEq, Repr

/-- A group cache entry (R67). -/
structure CacheEntry where
  state : EntryState
  key : Option (WindowKey × Nat)
  data : List Byte
  claims : Nat
  reRead : Bool
  cls : OpClass
  deriving DecidableEq, Repr

/-- A member of the WAIT_GROUP list: a fill record, or the seal group check (R69, R171). -/
inductive GroupWaiter where
  | record (win : WindowKey) (page : Nat)
  | sealCheck
  deriving DecidableEq, Repr

/-- The stream lane's running hash state, held as the bytes digested so far, and the state it had when the current
op began (R63, R118). DIGEST is a function of the byte string, so the string stands for the hash state. -/
structure StreamLane where
  start : List Byte
  now : List Byte
  deriving DecidableEq, Repr

/-- The park record (R64): OFFSET is the length of `hash`. -/
structure ParkRecord where
  win : WindowKey
  page : Nat
  hash : List Byte
  deriving DecidableEq, Repr

/-- The integrity unit (R63, R64, R67, R69). `lru` ranks the VALID entries, least recently claimed first;
`waitGroup` is in the order of entry. -/
structure IntegrityUnit where
  cache : Vector CacheEntry 8
  lru : List (Fin 8)
  waitGroup : List GroupWaiter
  lane : Option StreamLane
  park : Option ParkRecord
  deriving DecidableEq, Repr

/-! ## Page buffer unit (chapter 5) -/

/-- States of a buffer slot (R81). -/
inductive BufferState where
  | free | filling | valid
  deriving DecidableEq, Repr

/-- A buffer slot (R81). -/
structure BufferSlot where
  state : BufferState
  key : Option (Tag × Nat)
  data : List Byte
  pins : Nat
  heldFor : Option PortId
  discardPending : Bool
  deriving DecidableEq, Repr

/-- States of a fill record (R90). -/
inductive RecordState where
  | waitGroup | queued | ready | reading | parked
  deriving DecidableEq, Repr

/-- Where a fill's page goes (R88); a slot is named once it is acquired. -/
inductive Destination where
  | slot (n : Option (Fin 64))
  | scratch
  | scratchThenSlot
  deriving DecidableEq, Repr

/-- A fill record (R88). -/
structure FillRecord where
  win : WindowKey
  page : Nat
  cls : OpClass
  origin : Option PortId
  sweepMade : Bool
  holdFor : Option PortId
  waiters : List PortId
  state : RecordState
  reRead : Bool
  dest : Destination
  pageAddr : Nat
  groupAddr : Nat
  deriving DecidableEq, Repr

/-- The page buffer unit (R81, R84, R88, R96, R98). `lru` runs from its head, the least recently served slot. The
sweep scratch's content is `scratch`; it is held by the record whose destination names it. -/
structure PageBuffer where
  slots : Vector BufferSlot 64
  lru : List (Fin 64)
  records : List FillRecord
  prefetch : List (PortId × Tag × Nat)
  scratch : List Byte
  deriving DecidableEq, Repr

/-! ## Sweep unit and permit unit (chapter 9) -/

/-- What the sweep stream has in flight (R164). -/
inductive InFlight where
  | none
  | record (win : WindowKey) (page : Nat)
  | groupCheck
  deriving DecidableEq, Repr

/-- An entry of the seal queue with the fields of its hand-over (R39, R164). -/
structure SealHandover where
  win : StagingId
  pageCount : Nat
  pageAreaOffset : Nat
  deriving DecidableEq, Repr

/-- The seal job of the head of the seal queue (R164). -/
structure SealJob where
  handover : SealHandover
  group : Nat
  nextPage : Nat
  claim : Bool
  deriving DecidableEq, Repr

/-- The sweep unit (R164). STREAM STATE follows `inFlight` (`streamState` in Machine/Sweep.lean). -/
structure SweepUnit where
  target : Option WindowKey
  inFlight : InFlight
  sealQueue : List SealHandover
  job : Option SealJob
  deriving DecidableEq, Repr

/-- The permit unit (R176). -/
structure PermitUnit where
  latch : Bool
  printEn : Bool
  deriving DecidableEq, Repr

/-! ## Lifecycle unit (chapter 8) -/

/-- The port state, boot record and deadline timer of one port (R148). `deadline` is the time to expiry, in ms, the
timer was started with; none is stopped. -/
structure PortLife where
  state : PortState
  bootTag : Option Tag
  bootSet : Option Nat
  heldPages : List Nat
  deadline : Option Nat
  deriving DecidableEq, Repr

/-- The lifecycle unit (R148). -/
structure Lifecycle where
  ports : Vector PortLife 4
  fallbackUsed : Vector Bool 8
  cause : Cause
  causePort : Option PortId
  deriving DecidableEq, Repr

/-! ## Port units (chapter 7) -/

/-- FRAME STATE (R126). EXECUTING carries the code of the command it executes, which BACKGROUND takes (R130). -/
inductive FrameState where
  | idle | receiving | deferred
  | executing (code : Byte)
  | responding
  deriving DecidableEq, Repr

/-- The violation record (R59). Empty when `kind` is none. -/
structure Violation where
  kind : Option ViolationKind
  detail : Nat
  further : Nat
  overflow : Bool
  deriving DecidableEq, Repr

/-- How the bytes of a READ from the next one on are served (R52, R53, R54, R91, R93). -/
inductive Serve where
  /-- answered at once with this result -/
  | answer (result : ReadResult)
  /-- taken from a pinned buffer slot -/
  | slot (n : Fin 64)
  /-- stalled on the CHECKING window of a tag -/
  | stallChecking (tag : Tag)
  /-- stalled on the fill record of a page -/
  | stallFill (tag : Tag) (page : Nat)
  /-- stalled until the fill record of which the port is origin ends -/
  | stallOrigin (tag : Tag) (page : Nat)
  /-- a RAW run: the bytes that have arrived and are not yet passed, and whether the read ended FAULT -/
  | raw (ready : List Byte) (faulted : Bool)
  deriving DecidableEq, Repr

/-- The READ in progress (R50, R57): the logical address of byte 0, LENGTH, the number of bytes passed, how the next
bytes are served and up to which byte, and which violation reports it has made (R60). -/
structure ReadStream where
  start : Nat
  length : Nat
  passed : Nat
  serve : Serve
  stopAt : Nat
  reportedOutside : Bool
  reportedWithheld : Bool
  deriving DecidableEq, Repr

/-- A port unit (R126). `holdoff` is the time to expiry, in µs, the timer was started with; none is stopped.
`response` holds the bytes of a command response not yet passed, `stream` the READ in progress. `selectActive` is
the level of the select input as far as the part has seen it, `ignoring` a select that was active before the port
began to answer (R127), and `out` the last byte the controller clocked in. -/
structure PortUnit where
  frame : FrameState
  frameBytes : List Byte
  background : Option Byte
  e : BitVec 4
  events : Byte
  mask : Byte
  holdoff : Option Nat
  violation : Violation
  worst : ReadResult
  response : List Byte
  stream : Option ReadStream
  selectActive : Bool
  ignoring : Bool
  out : Byte
  deriving DecidableEq, Repr

/-! ## The whole part -/

/-- The state of the part, with the flash it is the sole master of, and the queue of waiting commands.

`flash` is the content of the serial NOR flash: the cells that do not hold 0xFF, by address ascending (log entry 1).
`freeCount` is the MODEL's own: it numbers the occasions of `Config.flashResidue`. `loaded` is false from a reset
until the one-time store has loaded its rows (R149, R191), and `cfg` is the config record then handed to the blocks,
none when the config row is BLANK. -/
structure State where
  flash : List Host.Cell
  freeCount : Nat
  ots : Ots
  loaded : Bool
  cfg : Option ConfigRecord
  fc : FlashCtl
  mu : ManifestUnit
  ke : KeyEngine
  wu : WindowUnit
  iu : IntegrityUnit
  pb : PageBuffer
  sw : SweepUnit
  pu : PermitUnit
  lc : Lifecycle
  ports : Vector PortUnit 4
  pending : List Instr
  deriving DecidableEq, Repr

/-- The part never stops on a fault of its own: the spec describes the effect of every command and event (a flash
FAULT is an outcome of an op, R121, and is modelled as one). The type is therefore empty. Safe: no step ends here. -/
inductive Fault where
  deriving DecidableEq, Repr

/-- Why a command has no meaning. -/
inductive Refusal where
  /-- Raised by `exec` alone, for a row of the table that has no meaning yet; none is left. Safe: it stops. -/
  | notModelled (mnemonic : String)
  deriving DecidableEq, Repr

/-! ## Values after reset -/

/-- An empty timeout record (R122). -/
def TimeoutRecord.empty : TimeoutRecord :=
  { kind := none, addr := 0, cls := .demand, requester := none, further := 0 }

/-- An empty violation record (R59). -/
def Violation.empty : Violation := { kind := none, detail := 0, further := 0, overflow := false }

/-- A FREE cache entry (R67). -/
def CacheEntry.empty : CacheEntry :=
  { state := .free, key := none, data := [], claims := 0, reRead := false, cls := .demand }

/-- A FREE buffer slot (R81). -/
def BufferSlot.empty : BufferSlot :=
  { state := .free, key := none, data := [], pins := 0, heldFor := none, discardPending := false }

/-- An image window for a blank config record: UNUSED with owner none, every field that no config record gives at its reset
value (R41). LOAD BASE 0, role DATA and the two properties no are the model's: R41 takes them from a config record alone
(DESIGN CHOICE, log entry 25). -/
def ImageWindow.unused : ImageWindow :=
  { state := .unused, owner := none, boot := false, printRequired := false, checkBeforeRelease := false,
    loadBase := 0, slot := none, former := none, version := 0, serial := 0, pageCount := 0, pageBase := 0,
    groupBase := 0, range := none, good := 0, bad := 0, cursor := 0, touched := false, reasonA := .none,
    reasonB := .none, digests := [] }

/-- A FREE staging window (R46). -/
def StagingWindow.empty : StagingWindow :=
  { state := .free, tag := 0, slot := none, base := 0, sizePages := 0, written := false, warned := false,
    reason := .none, firstBad := none, checked := 0, digests := [] }

/-- A port unit after either reset (R126). -/
def PortUnit.reset : PortUnit :=
  { frame := .idle, frameBytes := [], background := none, e := 0, events := 0, mask := 0x7F, holdoff := none,
    violation := Violation.empty, worst := .ok, response := [], stream := none, selectActive := false,
    ignoring := false, out := 0xFF }

/-- The life of a port before a blank config row is loaded (R148, R149). -/
def PortLife.reset : PortLife :=
  { state := .unused, bootTag := none, bootSet := none, heldPages := [], deadline := none }

/-- A flash controller after either reset, before the timeout record and clock step are given (R120, R125). -/
def FlashCtl.reset : FlashCtl :=
  { queues := { demand := [], prefetch := [], walker := [], staging := [], sweep := [] },
    port := .reset .first, erase := .none, step := 0, timeout := TimeoutRecord.empty }

/-- The walker after either reset (R17). -/
def Walker.reset : Walker :=
  { phase := .idle, entry := none, candidates := [], probeA := none, reRead := false }

/-- The manifest unit after either reset (R17). -/
def ManifestUnit.reset : ManifestUnit :=
  { view := none, tagQueue := [], walker := Walker.reset, buffer := [], holder := .none, sealRequests := [],
    sealCheck := none, filter := 0 }

/-- The one-time store as delivered: every row BLANK (11.1; log entry 6). -/
def Ots.blank : Ots :=
  { config := none, rootKeys := Vector.replicate 4 none, retired := Vector.replicate 4 false, revoked := [],
    floors := Vector.replicate 8 [], queue := [], running := none }

/-- The part right after power-on reset, its one-time store blank and its flash erased: every block in its reset
condition, the row load under way (R163, R191). -/
def State.reset : State :=
  { flash := []
    freeCount := 0
    ots := Ots.blank
    loaded := false
    cfg := none
    fc := FlashCtl.reset
    mu := ManifestUnit.reset
    ke := { queue := [], current := none }
    wu := { image := Vector.replicate 8 ImageWindow.unused, staging := Vector.replicate 2 StagingWindow.empty,
            pageMap := [], mapUsed := 0 }
    iu := { cache := Vector.replicate 8 CacheEntry.empty, lru := [], waitGroup := [], lane := none, park := none }
    pb := { slots := Vector.replicate 64 BufferSlot.empty, lru := [], records := [], prefetch := [], scratch := [] }
    sw := { target := none, inFlight := .none, sealQueue := [], job := none }
    pu := { latch := false, printEn := false }
    lc := { ports := Vector.replicate 4 PortLife.reset, fallbackUsed := Vector.replicate 8 false, cause := .powerOn,
            causePort := none }
    ports := Vector.replicate 4 PortUnit.reset
    pending := [] }

end Sys2Proof.Machine
end

