-- ==== Sys2Proof/Machine/Ops.lean ====
section
/-! DEFINITION. The named operations every block is written with: updates of one member of a table, the sparse maps
that hold the flash and the page state map, and the orders and tables of names the spec fixes. -/

namespace Sys2Proof.Machine

/-! ## Tables -/

/-- Change one member of a table. -/
def updAt {α : Type} {n : Nat} (v : Vector α n) (i : Fin n) (f : α → α) : Vector α n := v.set i (f v[i])

/-- Ports in ascending order. -/
def allPorts : List PortId := [0, 1, 2, 3]

/-- Tags in ascending order. -/
def allTags : List Tag := [0, 1, 2, 3, 4, 5, 6, 7]

/-- Staging windows in table order. -/
def allStaging : List StagingId := [0, 1]

/-- Group cache entries in ascending order. -/
def allEntries : List (Fin 8) := [0, 1, 2, 3, 4, 5, 6, 7]

/-- Buffer slots in ascending order. -/
def allSlots : List (Fin 64) := List.finRange 64

/-- The image window of a tag. -/
def State.image (s : State) (t : Tag) : ImageWindow := s.wu.image[t]

/-- A staging window. -/
def State.staging (s : State) (w : StagingId) : StagingWindow := s.wu.staging[w]

/-- A port unit. -/
def State.port (s : State) (p : PortId) : PortUnit := s.ports[p]

/-- A port's life in the lifecycle unit. -/
def State.life (s : State) (p : PortId) : PortLife := s.lc.ports[p]

/-- A buffer slot. -/
def State.bufferSlot (s : State) (n : Fin 64) : BufferSlot := s.pb.slots[n]

/-- A group cache entry. -/
def State.entry (s : State) (e : Fin 8) : CacheEntry := s.iu.cache[e]

/-- Change one image window. -/
def State.modImage (s : State) (t : Tag) (f : ImageWindow → ImageWindow) : State :=
  { s with wu := { s.wu with image := updAt s.wu.image t f } }

/-- Change one staging window. -/
def State.modStaging (s : State) (w : StagingId) (f : StagingWindow → StagingWindow) : State :=
  { s with wu := { s.wu with staging := updAt s.wu.staging w f } }

/-- Change one port unit. -/
def State.modPort (s : State) (p : PortId) (f : PortUnit → PortUnit) : State :=
  { s with ports := updAt s.ports p f }

/-- Change one port's life. -/
def State.modLife (s : State) (p : PortId) (f : PortLife → PortLife) : State :=
  { s with lc := { s.lc with ports := updAt s.lc.ports p f } }

/-- Change one buffer slot. -/
def State.modSlot (s : State) (n : Fin 64) (f : BufferSlot → BufferSlot) : State :=
  { s with pb := { s.pb with slots := updAt s.pb.slots n f } }

/-- Change one group cache entry. -/
def State.modEntry (s : State) (e : Fin 8) (f : CacheEntry → CacheEntry) : State :=
  { s with iu := { s.iu with cache := updAt s.iu.cache e f } }

/-! ## Names and orders -/

/-- The slot of a tag that is not this one. -/
def SlotId.other : SlotId → SlotId
  | .a => .b
  | .b => .a

/-- The order of classes, highest first (R111). -/
def OpClass.rank : OpClass → Nat
  | .demand => 0
  | .prefetch => 1
  | .walker => 2
  | .staging => 3
  | .sweep => 4

/-- The higher of two classes (R70). -/
def OpClass.higher (a b : OpClass) : OpClass := if a.rank ≤ b.rank then a else b

/-- The block that requests a purpose (R110). -/
def Purpose.requester : Purpose → Requester
  | .directory => .manifest
  | .probe _ => .manifest
  | .walkerManifest => .manifest
  | .sealManifest => .manifest
  | .group _ => .integrity
  | .page _ _ => .pageBuffer
  | .raw _ => .window
  | .program _ _ => .window
  | .erase _ => .window

/-- Whether a purpose is served by a READ (R109). -/
def Purpose.isRead : Purpose → Bool
  | .program _ _ => false
  | .erase _ => false
  | .directory => true
  | .probe _ => true
  | .walkerManifest => true
  | .sealManifest => true
  | .group _ => true
  | .page _ _ => true
  | .raw _ => true

/-! ## Sparse maps: a list of (key, value), keys rising, none holding the default -/

namespace Sparse

/-- The value at a key; an unlisted key has the default. -/
def get {α : Type} (d : α) : List (Nat × α) → Nat → α
  | [], _ => d
  | (k, v) :: rest, i => if i = k then v else get d rest i

/-- The cells of consecutive values from a key on, those equal to the default left out. -/
def cells {α : Type} [DecidableEq α] (d : α) : Nat → List α → List (Nat × α)
  | _, [] => []
  | k, v :: rest => if v = d then cells d (k + 1) rest else (k, v) :: cells d (k + 1) rest

/-- Replace the values from `lo` on by these. -/
def splice {α : Type} [DecidableEq α] (d : α) (m : List (Nat × α)) (lo : Nat) (vals : List α) : List (Nat × α) :=
  m.filter (fun c => c.1 < lo) ++ cells d lo vals ++ m.filter (fun c => lo + vals.length ≤ c.1)

/-- Set the `n` values from `lo` on to the default. -/
def erase {α : Type} (m : List (Nat × α)) (lo n : Nat) : List (Nat × α) :=
  m.filter (fun c => !(lo ≤ c.1 && c.1 < lo + n))

/-- The canonical form: keys strictly rising, no entry equal to the default. -/
def wf {α : Type} [DecidableEq α] (d : α) : List (Nat × α) → Bool
  | [] => true
  | [(_, v)] => v != d
  | (k, v) :: (k', v') :: rest => v != d && (k < k' && wf d ((k', v') :: rest))

end Sparse

/-! ## The flash -/

namespace Memory

/-- What an unlisted flash address reads as: the erased byte 0xFF (R109 says an ERASE leaves 0xFF; that the flash is
erased where nothing has been written is DESIGN CHOICE, log entry 1). -/
def unlisted : Byte := 0xFF

/-- One byte of the flash. -/
def read (m : List Host.Cell) (a : Nat) : Byte := Sparse.get unlisted m a

/-- `n` bytes of the flash from `a`. -/
def span (m : List Host.Cell) (a : Nat) : Nat → List Byte
  | 0 => []
  | n + 1 => read m a :: span m (a + 1) n

/-- Store these bytes from `a` on. -/
def write (m : List Host.Cell) (a : Nat) (bytes : List Byte) : List Host.Cell := Sparse.splice unlisted m a bytes

/-- An ERASE: every byte of the sector at `a` becomes 0xFF (R109). -/
def eraseSector (m : List Host.Cell) (a : Nat) : List Host.Cell := Sparse.erase m a 65536

/-- The canonical form of the flash. -/
def wf (m : List Host.Cell) : Bool := Sparse.wf unlisted m

/-- The bytes a READ delivers: those the flash port is said to deliver first, and from there what it stores
(R109; log entry 2). -/
def deliver (m : List Host.Cell) (a len : Nat) (given : List Byte) : List Byte :=
  given.take len ++ span m (a + given.length) (len - given.length)

/-- The free bytes of occasion `k` from `a` on. -/
def residue (k a : Nat) : Nat → List Byte
  | 0 => []
  | n + 1 => Config.flashResidue k a :: residue k (a + 1) n

/-- One programmed byte: a bit is left at 0 or lowered to 0 as the data says, and a bit the data would raise, which
the flash cannot change without an erase, is left as the flash leaves it: free (R109, R183). -/
def programByte (old new free : Byte) : Byte := (old &&& new) ||| (~~~old &&& new &&& free)

/-- The bytes a PROGRAM leaves, from `a` on (R109). -/
def programmed (m : List Host.Cell) (k : Nat) : Nat → List Byte → List Byte
  | _, [] => []
  | a, b :: rest => programByte (read m a) b (Config.flashResidue k a) :: programmed m k (a + 1) rest

end Memory

/-- A span of the flash is left as the flash leaves it: each byte is free (R115, R119, R125). -/
def State.disturb (s : State) (a n : Nat) : State :=
  { s with flash := Memory.write s.flash a (Memory.residue s.freeCount a n), freeCount := s.freeCount + 1 }

/-- A PROGRAM completes: its bytes enter the program page (R109). -/
def State.program (s : State) (a : Nat) (data : List Byte) : State :=
  { s with flash := Memory.write s.flash a (Memory.programmed s.flash s.freeCount a data),
           freeCount := s.freeCount + 1 }

/-- An ERASE completes: its sector reads 0xFF (R109). -/
def State.eraseSector (s : State) (a : Nat) : State := { s with flash := Memory.eraseSector s.flash a }

/-! ## The page state map -/

/-- The page state of image page `i` of a window: the entry at MAP RANGE start + i (R52, R65). A window without a
range has no entry; UNCHECKED is answered (only windows with a selected slot are asked). -/
def State.pageState (s : State) (t : Tag) (i : Nat) : PageState :=
  match (s.image t).range with
  | some r => Sparse.get .unchecked s.wu.pageMap (r.start + i)
  | none => .unchecked

/-- Set the page state of image page `i` of a window. -/
def State.setPageState (s : State) (t : Tag) (i : Nat) (v : PageState) : State :=
  match (s.image t).range with
  | some r => { s with wu := { s.wu with pageMap := Sparse.splice .unchecked s.wu.pageMap (r.start + i) [v] } }
  | none => s

/-- Every entry of a range becomes UNCHECKED (R34, R43). -/
def State.clearRange (s : State) (r : MapRange) : State :=
  { s with wu := { s.wu with pageMap := Sparse.erase s.wu.pageMap r.start r.length } }

end Sys2Proof.Machine
end

