-- ==== Sys2Proof/Machine/Operands.lean ====
section
/-! DEFINITION. The forms of operands: byte order, the frames of 1.5, the config record, the manifest and the
directory as the part reads them (chapter 1). -/

namespace Sys2Proof.Machine

/-! ## Byte order (R16: multi-byte fields are little-endian) -/

/-- The number a byte string spells, least significant byte first. -/
def leNat : List Byte → Nat
  | [] => 0
  | b :: rest => b.toNat + 256 * leNat rest

/-- The `n` bytes of a number, least significant first. -/
def leBytes : Nat → Nat → List Byte
  | 0, _ => []
  | n + 1, v => BitVec.ofNat 8 v :: leBytes n (v / 256)

/-- `n` bytes of a record from offset `off`. -/
def slice (bytes : List Byte) (off n : Nat) : List Byte := (bytes.drop off).take n

/-- The number in the `n` bytes at offset `off`. -/
def fieldAt (bytes : List Byte) (off n : Nat) : Nat := leNat (slice bytes off n)

/-- A digest as a record stores it: 32 bytes (1.3, 1.4). -/
def digestAt (bytes : List Byte) (off : Nat) : Digest := BitVec.ofNat 256 (fieldAt bytes off 32)

/-- `n` digests stored one after the other. -/
def digestsAt (bytes : List Byte) (off : Nat) : Nat → List Digest
  | 0 => []
  | n + 1 => digestAt bytes off :: digestsAt bytes (off + 32) n

/-- a / b rounded up. -/
def ceilDiv (a b : Nat) : Nat := (a + b - 1) / b

/-! ## Frames (1.5, R12) -/

/-- A frame as the part takes it: the command with its argument values, or a frame that is no well-formed frame of a
known command. -/
inductive Request where
  | malformed (code : Byte) (args : List Byte)
  | read (offset : BitVec 24) (length : BitVec 16)
  | setExt (value : Byte)
  | status
  | noticeRead
  | noticeMask (mask : Byte)
  | violationRead
  | report
  | bootDone
  | reportClear
  | stageOpen (tag : Byte)
  | stageErase (window : Byte) (sector : BitVec 16)
  | stageWrite (window : Byte) (offset : BitVec 32) (data : List Byte)
  | sealWindow (window : Byte)
  | stageClose (window : Byte)
  | commit (tag : Byte)
  | revoke (serial : Serial)
  | retireRoot (rootIndex : Byte)
  | provision (config : List Byte) (keys : List Key)
  | restart
  deriving DecidableEq, Repr

/-- COMMAND CODE (1.5). -/
def Request.code : Request → Byte
  | .malformed c _ => c
  | .read _ _ => 0x01
  | .setExt _ => 0x02
  | .status => 0x03
  | .noticeRead => 0x04
  | .noticeMask _ => 0x05
  | .violationRead => 0x06
  | .report => 0x07
  | .bootDone => 0x08
  | .reportClear => 0x10
  | .stageOpen _ => 0x11
  | .stageErase _ _ => 0x12
  | .stageWrite _ _ _ => 0x13
  | .sealWindow _ => 0x14
  | .stageClose _ => 0x15
  | .commit _ => 0x16
  | .revoke _ => 0x17
  | .retireRoot _ => 0x18
  | .provision _ _ => 0x19
  | .restart => 0x1A

/-- The argument bytes, in the order of the command table (1.5). -/
def Request.args : Request → List Byte
  | .malformed _ args => args
  | .read offset length => leBytes 3 offset.toNat ++ leBytes 2 length.toNat
  | .setExt v => [v]
  | .status => []
  | .noticeRead => []
  | .noticeMask m => [m]
  | .violationRead => []
  | .report => []
  | .bootDone => []
  | .reportClear => []
  | .stageOpen t => [t]
  | .stageErase w sector => w :: leBytes 2 sector.toNat
  | .stageWrite w offset data => w :: (leBytes 4 offset.toNat ++ data)
  | .sealWindow w => [w]
  | .stageClose w => [w]
  | .commit t => [t]
  | .revoke serial => leBytes 4 serial.toNat
  | .retireRoot r => [r]
  | .provision config keys => config ++ (BitVec.ofNat 8 keys.length :: keys.flatten)
  | .restart => []

/-- The bytes of a frame: COMMAND CODE, ARG LENGTH, the arguments (1.5). -/
def Request.bytes (r : Request) : List Byte := r.code :: (leBytes 2 r.args.length ++ r.args)

/-- `n` keys of 512 bytes, one after the other. -/
def splitKeys : Nat → List Byte → List Key
  | 0, _ => []
  | n + 1, bytes => bytes.take 512 :: splitKeys n (bytes.drop 512)

/-- Read a frame's code and arguments by the command table (R12). A frame whose code is not in the table or whose
ARG LENGTH is not allowed for it is malformed; so is a READ whose LENGTH is not 1..8192 and a PROVISION whose KEY
COUNT is not 1..4 or does not agree with ARG LENGTH (R132, test 1). -/
def parseFrame (code : Byte) (args : List Byte) : Request :=
  let one (f : Byte → Request) : Request := if args.length = 1 then f (args.getD 0 0) else .malformed code args
  let none (r : Request) : Request := if args.length = 0 then r else .malformed code args
  match code.toNat with
  | 0x01 =>
    if args.length = 5 ∧ 1 ≤ fieldAt args 3 2 ∧ fieldAt args 3 2 ≤ 8192 then
      .read (BitVec.ofNat 24 (fieldAt args 0 3)) (BitVec.ofNat 16 (fieldAt args 3 2))
    else .malformed code args
  | 0x02 => one .setExt
  | 0x03 => none .status
  | 0x04 => none .noticeRead
  | 0x05 => one .noticeMask
  | 0x06 => none .violationRead
  | 0x07 => none .report
  | 0x08 => none .bootDone
  | 0x10 => none .reportClear
  | 0x11 => one .stageOpen
  | 0x12 =>
    if args.length = 3 then .stageErase (args.getD 0 0) (BitVec.ofNat 16 (fieldAt args 1 2)) else .malformed code args
  | 0x13 =>
    if 6 ≤ args.length ∧ args.length ≤ 261 then
      .stageWrite (args.getD 0 0) (BitVec.ofNat 32 (fieldAt args 1 4)) (args.drop 5)
    else .malformed code args
  | 0x14 => one .sealWindow
  | 0x15 => one .stageClose
  | 0x16 => one .commit
  | 0x17 => if args.length = 4 then .revoke (BitVec.ofNat 32 (fieldAt args 0 4)) else .malformed code args
  | 0x18 => one .retireRoot
  | 0x19 =>
    let k := (args.getD 56 0).toNat
    if 1 ≤ k ∧ k ≤ 4 ∧ args.length = 57 + 512 * k then
      .provision (args.take 56) (splitKeys k (args.drop 57))
    else .malformed code args
  | 0x1A => none .restart
  | _ => .malformed code args

/-- Test 1 of R132. -/
def Request.wellFormed : Request → Bool
  | .malformed _ _ => false
  | .read _ length => 1 ≤ length.toNat && length.toNat ≤ 8192
  | .stageWrite _ _ data => 1 ≤ data.length && data.length ≤ 256
  | .provision config keys =>
      config.length == 56 && (1 ≤ keys.length && keys.length ≤ 4) && keys.all (fun k => k.length == 512)
  | .setExt _ => true
  | .status => true
  | .noticeRead => true
  | .noticeMask _ => true
  | .violationRead => true
  | .report => true
  | .bootDone => true
  | .reportClear => true
  | .stageOpen _ => true
  | .stageErase _ _ => true
  | .sealWindow _ => true
  | .stageClose _ => true
  | .commit _ => true
  | .revoke _ => true
  | .retireRoot _ => true
  | .restart => true

/-- The formatter-only commands (R132). -/
def Request.formatterOnly : Request → Bool
  | .reportClear => true
  | .stageOpen _ => true
  | .stageErase _ _ => true
  | .stageWrite _ _ _ => true
  | .sealWindow _ => true
  | .stageClose _ => true
  | .commit _ => true
  | .revoke _ => true
  | .retireRoot _ => true
  | .provision _ _ => true
  | .restart => true
  | .malformed _ _ => false
  | .read _ _ => false
  | .setExt _ => false
  | .status => false
  | .noticeRead => false
  | .noticeMask _ => false
  | .violationRead => false
  | .report => false
  | .bootDone => false

/-- The commands port 0 takes in factory state (R134). -/
def Request.takenInFactory : Request → Bool
  | .read _ _ => true
  | .status => true
  | .report => true
  | .noticeRead => true
  | .noticeMask _ => true
  | .provision _ _ => true
  | .malformed _ _ => false
  | .setExt _ => false
  | .violationRead => false
  | .bootDone => false
  | .reportClear => false
  | .stageOpen _ => false
  | .stageErase _ _ => false
  | .stageWrite _ _ _ => false
  | .sealWindow _ => false
  | .stageClose _ => false
  | .commit _ => false
  | .revoke _ => false
  | .retireRoot _ => false
  | .restart => false

/-! ## The config record (Table 1-6, R192) -/

/-- ROLE. -/
def Role.ofCode : Nat → Option Role
  | 0 => some .formatter
  | 1 => some .engine
  | 2 => some .panel
  | 3 => some .scanfax
  | _ => none

/-- BOUND PORT. -/
def boundOfCode : Nat → Option PortId
  | 0 => some 0
  | 1 => some 1
  | 2 => some 2
  | 3 => some 3
  | _ => none

/-- DEADLINE ACTION; PROVISION admits the codes 0..3 alone (R192). -/
def DeadlineAction.ofCode : Nat → DeadlineAction
  | 1 => .notice
  | 2 => .fallback
  | 3 => .system
  | _ => .none

/-- ON-FAIL ACTION; PROVISION admits the codes 0 and 1 alone (R192). -/
def OnFail.ofCode : Nat → OnFail
  | 1 => .keep
  | _ => .hold

/-- A port's four bytes of the config record. -/
def portConfigAt (bytes : List Byte) (p : Nat) : PortConfig :=
  { role := Role.ofCode (fieldAt bytes (4 * p) 1)
    deadline := fieldAt bytes (4 * p + 1) 1
    action := DeadlineAction.ofCode (fieldAt bytes (4 * p + 2) 1)
    onFail := OnFail.ofCode (fieldAt bytes (4 * p + 3) 1) }

/-- A tag's four bytes of the config record. -/
def tagConfigAt (bytes : List Byte) (t : Nat) : TagConfig :=
  let flags := (bytes.getD (16 + 4 * t + 1) 0)
  { bound := boundOfCode (fieldAt bytes (16 + 4 * t) 1)
    boot := flags.getLsbD 0
    printRequired := flags.getLsbD 1
    checkBeforeRelease := flags.getLsbD 2
    loadBase := fieldAt bytes (16 + 4 * t + 2) 2 }

/-- The config record its 56 bytes give. -/
def configOfBytes (bytes : List Byte) : ConfigRecord :=
  { ports := #v[portConfigAt bytes 0, portConfigAt bytes 1, portConfigAt bytes 2, portConfigAt bytes 3]
    tags := #v[tagConfigAt bytes 0, tagConfigAt bytes 1, tagConfigAt bytes 2, tagConfigAt bytes 3,
               tagConfigAt bytes 4, tagConfigAt bytes 5, tagConfigAt bytes 6, tagConfigAt bytes 7]
    holdoff := fieldAt bytes 48 1
    dMin := fieldAt bytes 49 1
    dMax := fieldAt bytes 50 1
    flashSectors := fieldAt bytes 52 2 }

/-- D_MAX as the flash controller takes it: D_MIN where the record gives a greater D_MIN (R123). -/
def ConfigRecord.dTop (c : ConfigRecord) : Nat := max c.dMin c.dMax

/-- The end of a tentative span (R47). -/
def tentativeEnd (loadBase : Nat) : Nat := min (loadBase + 8192) 65536

/-- The conditions PROVISION puts on a config record, in their order; all are refused with RANGE (R192). -/
def configValid (bytes : List Byte) : Bool :=
  let c := configOfBytes bytes
  let roleCode (p : PortId) := fieldAt bytes (4 * p.val) 1
  let boundCode (t : Tag) := fieldAt bytes (16 + 4 * t.val) 1
  let tag (t : Tag) := c.tags[t]
  -- 1: roles, exactly one FORMATTER
  allPorts.all (fun p => roleCode p ≤ 3 || roleCode p == 0xFF)
  && (allPorts.filter (fun p => roleCode p == 0)).length == 1
  -- 2: actions
  && allPorts.all (fun p => fieldAt bytes (4 * p.val + 2) 1 ≤ 3 && fieldAt bytes (4 * p.val + 3) 1 ≤ 1)
  -- 3: bindings
  && allTags.all (fun t => boundCode t == 0xFF || (boundCode t ≤ 3 &&
       (match (tag t).bound with
        | some p => (c.ports[p]).role.isSome
        | none => false)))
  -- 4: one BOOT tag for each port with a role
  && allPorts.all (fun p => (c.ports[p]).role.isNone ||
       (allTags.filter (fun t => (tag t).bound == some p && (tag t).boot)).length == 1)
  -- 5: tentative spans of one port's tags are disjoint
  && allTags.all (fun t => allTags.all (fun u =>
       t == u || (tag t).bound.isNone || (tag t).bound != (tag u).bound
       || tentativeEnd (tag t).loadBase ≤ (tag u).loadBase || tentativeEnd (tag u).loadBase ≤ (tag t).loadBase))
  -- 6: the formatter's tags end at or below 49152
  && allTags.all (fun t => match (tag t).bound with
       | some p => (c.ports[p]).role != some .formatter || (tag t).loadBase + 8192 ≤ 49152
       | none => true)
  -- 7, 8: H, clock bounds, flash size
  && (c.holdoff ≤ 31 && c.dMin ≤ 7 && c.dMax ≤ 7)
  && (256 ≤ c.flashSectors && c.flashSectors ≤ 2048)

/-! ## The directory (1.2, R2 to R5) -/

/-- A directory entry (1.2). -/
structure DirectoryEntry where
  tag : Nat
  baseA : Nat
  baseB : Nat
  size : Nat
  deriving DecidableEq, Repr

/-- Entry k of the directory bytes. -/
def directoryEntryAt (bytes : List Byte) (k : Nat) : DirectoryEntry :=
  { tag := fieldAt bytes (8 + 8 * k) 1
    baseA := fieldAt bytes (8 + 8 * k + 2) 2
    baseB := fieldAt bytes (8 + 8 * k + 4) 2
    size := fieldAt bytes (8 + 8 * k + 6) 2 }

/-- The judgement of one slot against the slots that stand, each a span of sectors (R4). -/
def judgeSlot (sectors : Nat) (standing : List (Nat × Nat)) (base size : Nat) : Reason :=
  if base = 0xFFFF then .noSlot
  else if size = 0 ∨ 512 < size then .layout
  else if base = 0 then .layout
  else if sectors < base + size then .layout
  else if standing.any (fun (b, z) => base < b + z && b < base + size) then .layout
  else .none

/-- A directory view in the making, with the slots that stand. -/
structure Judging where
  view : Vector (Option DirectoryRecord) 8
  standing : List (Nat × Nat)
  deriving DecidableEq, Repr

/-- One entry is judged: skipped, ignored, or made its tag's entry, slot A first (R3, R4). -/
def judgeEntry (sectors : Nat) (j : Judging) (d : DirectoryEntry) : Judging :=
  if h : d.tag < 8 then
    let t : Tag := ⟨d.tag, h⟩
    if (j.view[t]).isSome then j
    else
      let ra := judgeSlot sectors j.standing d.baseA d.size
      let standing := if ra = .none then j.standing ++ [(d.baseA, d.size)] else j.standing
      let rb := judgeSlot sectors standing d.baseB d.size
      let standing' := if rb = .none then standing ++ [(d.baseB, d.size)] else standing
      { view := j.view.set t (some
          { slotSize := d.size, baseA := d.baseA, baseB := d.baseB, reasonA := ra, reasonB := rb }),
        standing := standing' }
  else j

/-- A tag's record without any slot: no directory entry for the tag (R3), or an unusable directory (R2). R5 gives such a
record its two reasons and no SLOT SIZE and no base sector: the model puts 0 for the three (DESIGN CHOICE, log entry
28). -/
def DirectoryRecord.absent (r : Reason) : DirectoryRecord :=
  { slotSize := 0, baseA := 0, baseB := 0, reasonA := r, reasonB := r }

/-- The view of an unusable directory: NO_DIRECTORY for both slots of every tag (R2). -/
def directoryUnusable : Vector DirectoryRecord 8 := Vector.replicate 8 (.absent .noDirectory)

/-- The directory view of 2048 directory bytes (R2, R3). -/
def judgeDirectory (sectors : Nat) (bytes : List Byte) : Vector DirectoryRecord 8 :=
  let count := fieldAt bytes 4 1
  if fieldAt bytes 0 4 ≠ 0x44474654 ∨ 8 < count then directoryUnusable
  else
    let j := ((List.range count).map (directoryEntryAt bytes)).foldl (judgeEntry sectors)
      { view := Vector.replicate 8 none, standing := [] }
    j.view.map (fun r => r.getD (.absent .noSlot))

/-- A record's reason for a slot. -/
def DirectoryRecord.reason (r : DirectoryRecord) : SlotId → Reason
  | .a => r.reasonA
  | .b => r.reasonB

/-- A record's base sector for a slot. -/
def DirectoryRecord.base (r : DirectoryRecord) : SlotId → Nat
  | .a => r.baseA
  | .b => r.baseB

/-! ## The manifest (1.4, R6 to R11) -/

/-- The number of digest groups of an image (R6). -/
def groupsOf (pageCount : Nat) : Nat := ceilDiv pageCount 64

/-- MANIFEST LENGTH of an image with this PAGE COUNT (1.4). -/
def manifestLength (pageCount : Nat) : Nat := 1608 + 32 * groupsOf pageCount

/-- The fields of a manifest that the part interprets (1.4). -/
structure Manifest where
  magic : Nat
  format : Nat
  tag : Nat
  slotMark : Nat
  bootSet : Nat
  version : Nat
  pageCount : Nat
  loadBase : Nat
  pageAreaOffset : Nat
  length : Nat
  serial : Serial
  rootIndex : Nat
  deriving DecidableEq, Repr

/-- The fields of the manifest in the buffer (1.4). -/
def manifestOfBytes (b : List Byte) : Manifest :=
  { magic := fieldAt b 0 4
    format := fieldAt b 4 1
    tag := fieldAt b 5 1
    slotMark := fieldAt b 6 1
    bootSet := fieldAt b 7 1
    version := fieldAt b 8 2
    pageCount := fieldAt b 10 2
    loadBase := fieldAt b 12 2
    pageAreaOffset := fieldAt b 14 2
    length := fieldAt b 16 2
    serial := BitVec.ofNat 32 (fieldAt b 64 4)
    rootIndex := fieldAt b 68 1 }

/-- The conditions of R8, which give FORMAT. -/
def Manifest.formatBad (m : Manifest) : Bool :=
  m.magic != 0x4D474654
  || m.format != 1
  || 7 < m.tag
  || (m.slotMark != 0x41 && m.slotMark != 0x42)
  || m.version == 0
  || (m.pageCount == 0 || 8192 < m.pageCount)
  || (m.bootSet == 0 || 12 < m.bootSet || m.pageCount < m.bootSet)
  || m.length != manifestLength m.pageCount
  || m.serial == 0
  || 3 < m.rootIndex

/-- The conditions of R9, which give LAYOUT, for a slot of `slotSize` sectors. -/
def Manifest.layoutBad (m : Manifest) (slotSize : Nat) : Bool :=
  m.pageAreaOffset < 2 + ceilDiv (groupsOf m.pageCount) 2
  || slotSize * 16 < m.pageAreaOffset + m.pageCount
  || 65536 < m.loadBase + m.pageCount

/-- The structural check (R8, R9): NONE when it passes. -/
def Manifest.structural (m : Manifest) (slotSize : Nat) : Reason :=
  if m.formatBad then .format else if m.layoutBad slotSize then .layout else .none

/-- SLOT MARK of a slot (1.4). -/
def SlotId.mark : SlotId → Nat
  | .a => 0x41
  | .b => 0x42

/-- The filter index of a serial: the sum of its four bytes modulo 64 (2.2). -/
def filterIndex (serial : Serial) : Nat :=
  ((leBytes 4 serial.toNat).foldl (fun n b => n + b.toNat) 0) % 64

/-- The certificate's signed bytes: manifest bytes 64..583 (R10). -/
def certBytes (b : List Byte) : List Byte := slice b 64 520

/-- The manifest's signed bytes: bytes 0 to 1095 + 32 × G (R11). -/
def signedBytes (b : List Byte) (pageCount : Nat) : List Byte := slice b 0 (1096 + 32 * groupsOf pageCount)

end Sys2Proof.Machine
end

