-- ==== Sys2Proof/Machine/Flags.lean ====
section
/-! DEFINITION. The flags and lines of the part: who answers frames, HOLD, WAIT and NOTICE, the event sets with mask
and holdoff (7.4), the violation records (3.6), and the permit condition with PRINT_EN (9.4). -/

namespace Sys2Proof.Machine

/-! ## Roles and answering (R127, R132, R149, R196) -/

/-- Factory state: the load found the config row BLANK (R196). -/
def State.factory (s : State) : Bool := s.loaded && s.cfg.isNone

/-- A port's ROLE; none in factory state (R137). -/
def State.role (s : State) (p : PortId) : Option Role := s.cfg.bind (fun c => (c.ports[p]).role)

/-- The formatter's port: the port whose ROLE is FORMATTER, port 0 in factory state (R132). -/
def State.formatterPort (s : State) : Option PortId :=
  if s.factory then some 0 else allPorts.find? (fun p => s.role p == some .formatter)

/-- Whether a port answers frames (R127, R149). -/
def State.answers (s : State) (p : PortId) : Bool :=
  s.loaded && ((s.life p).state == .running || (s.life p).state == .confirmed || (s.factory && p == 0))

/-- The HOLD line of a port: asserted (true) unless the port answers frames (R149). -/
def State.hold (s : State) (p : PortId) : Bool := !s.answers p

/-! ## Events (Table 1-2, R142 to R147) -/

/-- The events (Table 1-2). -/
inductive Event where
  | permit | verdict | violation | deadline | stageWarn | sealDone | flashFault
  deriving DecidableEq, Repr

/-- An event's bit of the event byte (Table 1-2). -/
def Event.bit : Event → Byte
  | .permit => 0x01
  | .verdict => 0x02
  | .violation => 0x04
  | .deadline => 0x08
  | .stageWarn => 0x10
  | .sealDone => 0x20
  | .flashFault => 0x40

/-- VIOLATION and FLASH_FAULT are urgent (R143). -/
def Event.urgent : Event → Bool
  | .violation => true
  | .flashFault => true
  | .permit => false
  | .verdict => false
  | .deadline => false
  | .stageWarn => false
  | .sealDone => false

/-- The urgent events' bits. -/
def urgentBits : Byte := 0x44

/-- The level R144 gives NOTICE for a port's set, mask and timer. -/
def PortUnit.noticeLevel (u : PortUnit) : Bool :=
  (u.events &&& u.mask &&& urgentBits) != 0 || ((u.events &&& u.mask) != 0 && u.holdoff.isNone)

/-- When NOTICE becomes asserted the holdoff timer stops (R144, R145). -/
def PortUnit.settleNotice (u : PortUnit) : PortUnit := if u.noticeLevel then { u with holdoff := none } else u

/-- The holdoff timer a posting starts: H × 250 µs, stopped for H 0 (R144). -/
def holdoffOf (h : Nat) : Option Nat := if h = 0 then none else some (h * 250)

/-- Whether a posting of an event restarts the holdoff: an ordinary event the mask enables, while NOTICE is
deasserted (R144). -/
def PortUnit.restartsHoldoff (u : PortUnit) (ev : Event) : Bool :=
  !ev.urgent && (u.mask &&& ev.bit) != 0 && !u.noticeLevel

/-- The posting of an event to a port (R142, R144). -/
def PortUnit.post (h : Nat) (ev : Event) (u : PortUnit) : PortUnit :=
  PortUnit.settleNotice
    { u with events := u.events ||| ev.bit,
             holdoff := if u.restartsHoldoff ev then holdoffOf h else u.holdoff }

/-- H: from the config record, 0 in factory state (R144, R196). -/
def State.holdoffH (s : State) : Nat := (s.cfg.map (·.holdoff)).getD 0

/-- The posting of an event to a port (R142). -/
def State.post (s : State) (p : PortId) (ev : Event) : State := s.modPort p (PortUnit.post s.holdoffH ev)

/-- A posting to the formatter's port (R143). -/
def State.postFormatter (s : State) (ev : Event) : State :=
  match s.formatterPort with
  | some f => s.post f ev
  | none => s

/-- A posting to a port and to the formatter's port, once to a port that is both (R143). -/
def State.postBoth (s : State) (p : PortId) (ev : Event) : State :=
  if s.formatterPort = some p then s.post p ev else (s.post p ev).postFormatter ev

/-- The NOTICE line of a port: driven deasserted while the port gives no responses (R145). -/
def State.notice (s : State) (p : PortId) : Bool := s.answers p && (s.port p).noticeLevel

/-- A READ's next data byte is not ready (R131, R135). -/
def ReadStream.stalled (st : ReadStream) : Bool :=
  st.passed < st.length &&
    (match st.serve with
     | .stallChecking _ => true
     | .stallFill _ _ => true
     | .stallOrigin _ _ => true
     | .raw [] false => true
     | .raw [] true => false
     | .raw (_ :: _) _ => false
     | .answer _ => false
     | .slot _ => false)

/-- The WAIT line of a port (R131). -/
def State.wait (s : State) (p : PortId) : Bool :=
  s.answers p &&
    (match (s.port p).frame with
     | .deferred => true
     | .executing _ => true
     | .responding => ((s.port p).stream.map ReadStream.stalled).getD false
     | .idle => false
     | .receiving => false)

/-! ## Violation records (R59) -/

/-- A violation report reaches a port's record (R59): an empty record takes it and VIOLATION is posted to the port; a
full one counts it. -/
def State.violate (s : State) (p : PortId) (kind : ViolationKind) (detail : Nat) : State :=
  match (s.port p).violation.kind with
  | none =>
    (s.modPort p (fun u => { u with violation := { kind := some kind, detail := detail, further := 0, overflow := false } })).post
      p .violation
  | some _ =>
    s.modPort p (fun u => { u with violation := { u.violation with further := min (u.violation.further + 1) 255,
                                                                   overflow := true } })

/-! ## The print permit (R176 to R179) -/

/-- Whether the config record binds a print-required tag to a port (R176, condition 2). -/
def State.printTagBound (s : State) : Bool :=
  match s.cfg with
  | some c => allTags.any (fun t => (c.tags[t]).printRequired && (c.tags[t]).bound.isSome)
  | none => false

/-- A print-required tag's window is ACCEPTED with GOOD COUNT equal to PAGE COUNT, and its owner is CONFIRMED
(R176, conditions 3 and 4). A tag bound to no port has an UNUSED window. -/
def State.printTagReady (s : State) (t : Tag) : Bool :=
  (s.image t).state == .accepted && (s.image t).good == (s.image t).pageCount &&
    (match (s.image t).owner with
     | some p => (s.life p).state == .confirmed
     | none => false)

/-- The permit condition (R176). -/
def State.permitCondition (s : State) : Bool :=
  !s.pu.latch && s.printTagBound && allTags.all (fun t => !(s.image t).printRequired || s.printTagReady t)

/-- The permit unit evaluates its condition and drives PRINT_EN from it; each change posts PERMIT to every port that
is RUNNING or CONFIRMED (R177, R179). -/
def State.evalPermit (s : State) : State :=
  let level := s.permitCondition
  if level = s.pu.printEn then s
  else
    allPorts.foldl
      (fun s p => if (s.life p).state == .running || (s.life p).state == .confirmed then s.post p .permit else s)
      { s with pu := { s.pu with printEn := level } }

end Sys2Proof.Machine
end

