-- ==== Sys2Proof/Machine/Slots.lean ====
section
/-! DEFINITION. Buffer slots, pins, holds and the LRU list of the page buffer unit (5.1). -/

namespace Sys2Proof.Machine

/-- The slot that holds a page, when the page is present: VALID, without DISCARD-PENDING (R82). -/
def State.present (s : State) (t : Tag) (i : Nat) : Option (Fin 64) :=
  allSlots.find? (fun n =>
    (s.bufferSlot n).state == .valid && (s.bufferSlot n).key == some (t, i) && !(s.bufferSlot n).discardPending)

/-- A slot leaves the LRU list (R84). -/
def State.lruLeave (s : State) (n : Fin 64) : State :=
  { s with pb := { s.pb with lru := s.pb.lru.filter (fun m => m != n) } }

/-- A slot joins the tail of the LRU list, or moves there (R84). -/
def State.lruJoin (s : State) (n : Fin 64) : State :=
  { s with pb := { s.pb with lru := s.pb.lru.filter (fun m => m != n) ++ [n] } }

/-- A slot becomes FREE: it drops its key and leaves the LRU list (R81). -/
def State.freeSlot (s : State) (n : Fin 64) : State := (s.modSlot n (fun _ => BufferSlot.empty)).lruLeave n

/-- The slot an acquisition takes: the lowest-numbered FREE slot, else the head of the LRU list (R85). -/
def State.acquirable (s : State) : Option (Fin 64) :=
  match allSlots.find? (fun n => (s.bufferSlot n).state == .free) with
  | some n => some n
  | none => s.pb.lru.head?

/-- A slot is acquired for a page: it is evicted if it was VALID, and takes the page's key with PIN COUNT 0 and both
flags clear (R85). -/
def State.takeSlot (s : State) (n : Fin 64) (state : BufferState) (t : Tag) (i : Nat) (data : List Byte) : State :=
  (s.modSlot n (fun _ => { state := state, key := some (t, i), data := data, pins := 0, heldFor := none,
                           discardPending := false })).lruLeave n

/-- A port begins taking bytes from a slot: PIN COUNT rises and the slot leaves the LRU list (R83, R84). -/
def State.pinSlot (s : State) (n : Fin 64) : State :=
  (s.modSlot n (fun b => { b with pins := b.pins + 1 })).lruLeave n

/-- A port releases its pin (R83, R84, R87): at PIN COUNT 0 a DISCARD-PENDING slot becomes FREE, and a slot that is
not held moves to the tail of the LRU list. -/
def State.unpinSlot (s : State) (n : Fin 64) : State :=
  let s := s.modSlot n (fun b => { b with pins := b.pins - 1 })
  let b := s.bufferSlot n
  if b.pins = 0 then
    if b.discardPending then s.freeSlot n
    else if b.heldFor.isNone && b.state == .valid then s.lruJoin n
    else s
  else s

/-- A slot becomes HELD-FOR-RELEASE for a port and leaves the LRU list (R84, R86). -/
def State.holdSlot (s : State) (n : Fin 64) (p : PortId) : State :=
  (s.modSlot n (fun b => { b with heldFor := some p })).lruLeave n

/-- A VALID slot is discarded: FREE at once, or DISCARD-PENDING while it is pinned (R87). -/
def State.discardSlot (s : State) (n : Fin 64) : State :=
  if (s.bufferSlot n).state = .valid then
    if (s.bufferSlot n).pins = 0 then s.freeSlot n
    else (s.modSlot n (fun b => { b with discardPending := true, heldFor := none })).lruLeave n
  else s

/-- The image page a slot holds; 0 for a slot without a key. -/
def BufferSlot.page (b : BufferSlot) : Nat := (b.key.map Prod.snd).getD 0

/-- Put a slot into a list that is in ascending image page. -/
def State.insertByPage (s : State) (n : Fin 64) : List (Fin 64) → List (Fin 64)
  | [] => [n]
  | m :: rest =>
    if (s.bufferSlot n).page ≤ (s.bufferSlot m).page then n :: m :: rest else m :: s.insertByPage n rest

/-- The slots held for a port, in ascending image page (R107). -/
def State.heldSlots (s : State) (p : PortId) : List (Fin 64) :=
  (allSlots.filter (fun n => (s.bufferSlot n).heldFor == some p)).foldr s.insertByPage []

/-- A port's holds end: each held slot's flag is cleared, and it joins the tail of the LRU list in ascending image
page if no port pins it (R107). -/
def State.releaseHolds (s : State) (p : PortId) : State :=
  (s.heldSlots p).foldl
    (fun s n =>
      let s := s.modSlot n (fun b => { b with heldFor := none })
      if (s.bufferSlot n).pins = 0 then s.lruJoin n else s)
    s

/-- The numbers of slots FREE, FILLING and VALID (R108). -/
def State.slotCount (s : State) (st : BufferState) : Nat :=
  (allSlots.filter (fun n => (s.bufferSlot n).state == st)).length

end Sys2Proof.Machine
end

