-- ==== Sys2Proof/Machine/Flash.lean ====
section
/-! DEFINITION. The flash controller (chapter 6): class queues, the arbiter, the start of an op, erase suspend and
resume, the timeout record and the clock ratchet. -/

namespace Sys2Proof.Machine

/-! ## Class queues (R110 to R112) -/

/-- The queue of a class. -/
def ClassQueues.get (q : ClassQueues) : OpClass → List FlashRequest
  | .demand => q.demand
  | .prefetch => q.prefetch
  | .walker => q.walker
  | .staging => q.staging
  | .sweep => q.sweep

/-- Replace the queue of a class. -/
def ClassQueues.put (q : ClassQueues) (c : OpClass) (l : List FlashRequest) : ClassQueues :=
  match c with
  | .demand => { q with demand := l }
  | .prefetch => { q with prefetch := l }
  | .walker => { q with walker := l }
  | .staging => { q with staging := l }
  | .sweep => { q with sweep := l }

/-- A request joins the tail of its class queue (R110). -/
def ClassQueues.joinTail (q : ClassQueues) (r : FlashRequest) : ClassQueues := q.put r.cls (q.get r.cls ++ [r])

/-- A request joins the head of its class queue (R112). -/
def ClassQueues.joinHead (q : ClassQueues) (r : FlashRequest) : ClassQueues := q.put r.cls (r :: q.get r.cls)

/-- Keep the requests that satisfy a test. -/
def ClassQueues.keep (q : ClassQueues) (test : FlashRequest → Bool) : ClassQueues :=
  { demand := q.demand.filter test, prefetch := q.prefetch.filter test, walker := q.walker.filter test,
    staging := q.staging.filter test, sweep := q.sweep.filter test }

/-- Change the waiting requests. -/
def ClassQueues.change (q : ClassQueues) (f : FlashRequest → FlashRequest) : ClassQueues :=
  { demand := q.demand.map f, prefetch := q.prefetch.map f, walker := q.walker.map f,
    staging := q.staging.map f, sweep := q.sweep.map f }

/-- All waiting requests, highest class first. -/
def ClassQueues.all (q : ClassQueues) : List FlashRequest := q.demand ++ q.prefetch ++ q.walker ++ q.staging ++ q.sweep

/-- The live waiting request of a purpose, if there is one. -/
def ClassQueues.find (q : ClassQueues) (p : Purpose) : Option FlashRequest :=
  q.all.find? (fun r => r.live && r.purpose == p)

/-- The head of the highest non-empty queue of these classes, with the queues it leaves (R111). -/
def ClassQueues.pop (q : ClassQueues) : List OpClass → Option (FlashRequest × ClassQueues)
  | [] => none
  | c :: rest =>
    match q.get c with
    | r :: l => some (r, q.put c l)
    | [] => q.pop rest

/-- The classes whose reads an erase gives way to (R114). -/
def suspendingClasses : List OpClass := [.demand, .prefetch, .walker]

/-- All classes, highest first (R111). -/
def allClasses : List OpClass := [.demand, .prefetch, .walker, .staging, .sweep]

/-! ## Starting an op (R99, R101, R111) -/

/-- Change the fill record of a page. -/
def State.modRecord (s : State) (w : WindowKey) (i : Nat) (f : FillRecord → FillRecord) : State :=
  { s with pb := { s.pb with records := s.pb.records.map (fun r => if r.win = w ∧ r.page = i then f r else r) } }

/-- The fill record of a page (R88: found by its key; R92: at most one). -/
def State.record (s : State) (w : WindowKey) (i : Nat) : Option FillRecord :=
  s.pb.records.find? (fun r => r.win == w && r.page == i)

/-- The stream lane starts from this hash state (R63). -/
def State.startLane (s : State) (hash : List Byte) : State :=
  { s with iu := { s.iu with lane := some { start := hash, now := hash } } }

/-- The stream lane is idle (R63). -/
def State.dropLane (s : State) : State := { s with iu := { s.iu with lane := none } }

/-- A record's destination is made ready as it enters READING (R85, R99). -/
def State.prepareDestination (s : State) (r : FillRecord) : State :=
  match r.dest, r.win with
  | .slot none, .image t =>
    (match s.acquirable with
     | some n => (s.takeSlot n .filling t r.page []).modRecord r.win r.page (fun r => { r with dest := .slot (some n) })
     | none => s)
  | .slot none, .staging _ => s
  | .slot (some _), _ => s
  | .scratch, _ => { s with pb := { s.pb with scratch := [] } }
  | .scratchThenSlot, _ => { s with pb := { s.pb with scratch := [] } }

/-- A record enters READING when the flash controller starts its page read (R99); a PARKED record resumes, the lane
taking the park record's hash state (R101). -/
def State.enterReading (s : State) (w : WindowKey) (i : Nat) : State :=
  match s.record w i with
  | none => s
  | some r =>
    match r.state, s.iu.park with
    | .parked, some park =>
      let s := s.startLane park.hash
      { s with iu := { s.iu with park := none } }.modRecord w i (fun r => { r with state := .reading })
    | _, _ => ((s.startLane []).modRecord w i (fun r => { r with state := .reading })).prepareDestination r

/-- A request becomes the current op, with RETRY-USED clear, at the clock step in force (R111, R113). -/
def State.startOp (s : State) (r : FlashRequest) : State :=
  let s := { s with fc := { s.fc with port := .op { req := r, delivered := 0, retryUsed := false, step := s.fc.step } } }
  match r.purpose with
  | .erase _ => { s with fc := { s.fc with erase := .erasing r } }
  | .group _ => s.startLane []
  | .page w i => if r.live then s.enterReading w i else s
  | .directory => s
  | .probe _ => s
  | .walkerManifest => s
  | .sealManifest => s
  | .raw _ => s
  | .program _ _ => s

/-! ## The arbiter (R111, R114 to R116) -/

/-- The flash is free: no current op, and the erase state NONE or SUSPENDED (R111). -/
def FlashCtl.isFree (f : FlashCtl) : Bool :=
  f.port == .idle &&
    (match f.erase with
     | .none => true
     | .suspended _ => true
     | .erasing _ => false
     | .suspending _ => false)

/-- The arbiter's pick when the flash is free; with an erase SUSPENDED and no DEMAND, PREFETCH or WALKER request
waiting, RESUME (R111, R115). The spec does not say at which clock step a resumed ERASE runs (R113 and R123 speak of an op's
start): the model gives it the step in force at the RESUME (DESIGN CHOICE, log entry 30). -/
def State.pick (s : State) : State :=
  if s.fc.isFree then
    match s.fc.erase with
    | .suspended e =>
      (match s.fc.queues.pop suspendingClasses with
       | some (r, q) => { s with fc := { s.fc with queues := q } }.startOp r
       | none =>
         { s with fc := { s.fc with
             port := .op { req := e, delivered := 0, retryUsed := false, step := s.fc.step }, erase := .erasing e } })
    | _ =>
      (match s.fc.queues.pop allClasses with
       | some (r, q) => { s with fc := { s.fc with queues := q } }.startOp r
       | none => s)
  else s

/-- Whether the current op is an ERASE. -/
def FlashCtl.runsErase (f : FlashCtl) : Bool :=
  match f.port with
  | .op c => (match c.req.purpose with
              | .erase _ => true
              | _ => false)
  | .idle => false
  | .reset _ => false

/-- What follows a request's joining a queue: SUSPEND, when it is of class DEMAND, PREFETCH or WALKER and the erase
is ERASING (R114); else a pick if the flash is free (R111). -/
def State.afterJoin (s : State) (c : OpClass) : State :=
  match s.fc.erase with
  | .erasing e =>
    if suspendingClasses.contains c && s.fc.runsErase then { s with fc := { s.fc with erase := .suspending e } }
    else s
  | _ => s.pick

/-- A new request joins the tail of its class queue (R110). -/
def State.request (s : State) (r : FlashRequest) : State :=
  State.afterJoin { s with fc := { s.fc with queues := s.fc.queues.joinTail r } } r.cls

/-- A request joins the head of its class queue (R112). -/
def State.requestAtHead (s : State) (r : FlashRequest) : State :=
  State.afterJoin { s with fc := { s.fc with queues := s.fc.queues.joinHead r } } r.cls

/-- A waiting request is withdrawn: it leaves its queue and never starts (R112). -/
def State.withdraw (s : State) (p : Purpose) : State :=
  { s with fc := { s.fc with queues := s.fc.queues.keep (fun r => !(r.live && r.purpose == p)) } }

/-- A waiting request's class is raised: it leaves its queue and joins the tail of the new class's queue; a request
already running is unaffected (R112). -/
def State.raiseRequest (s : State) (p : Purpose) (c : OpClass) : State :=
  match s.fc.queues.find p with
  | some r => if r.cls = c then s else (s.withdraw p).request { r with cls := c }
  | none => s

/-- A PARKED record's continuation is raised: it leaves its queue and joins the head of the new class's queue
(R112). -/
def State.raiseAtHead (s : State) (p : Purpose) (c : OpClass) : State :=
  match s.fc.queues.find p with
  | some r => (s.withdraw p).requestAtHead { r with cls := c }
  | none => s

/-- An op loses its requester's interest (R113). -/
def CurrentOp.lose (c : CurrentOp) (p : Purpose) : CurrentOp :=
  if c.req.purpose = p then { c with req := { c.req with live := false } } else c

/-- The requester of a running READ withdraws its interest: the op, or the READ to be retried or failed after a RESET,
runs to its end and its data is discarded (R113). -/
def State.loseRunning (s : State) (p : Purpose) : State :=
  let port := match s.fc.port with
    | .op c => .op (c.lose p)
    | .reset (.retryRead c) => .reset (.retryRead (c.lose p))
    | .reset (.failRead c) => .reset (.failRead (c.lose p))
    | other => other
  { s with fc := { s.fc with port := port } }

/-- A live op of this purpose is on the flash port, running or in the RESET of its time-out. -/
def FlashCtl.carries (f : FlashCtl) (p : Purpose) : Bool :=
  match f.port with
  | .op c => c.req.live && c.req.purpose == p
  | .reset (.retryRead c) => c.req.live && c.req.purpose == p
  | .reset (.failRead c) => c.req.live && c.req.purpose == p
  | _ => false

/-- The current op has ended: the flash port is idle, and the arbiter picks (R111, R113). -/
def State.finishOp (s : State) : State := State.pick { s with fc := { s.fc with port := .idle } }

/-! ## Clock ratchet (R123, R124) -/

/-- D_MAX as the flash controller takes it; 0 in factory state (R123, R196). -/
def State.dTop (s : State) : Nat := (s.cfg.map (·.dTop)).getD 0

/-- A raise request: d becomes min(d + 1, D_MAX) (R124). -/
def State.raiseClock (s : State) : State :=
  { s with fc := { s.fc with step := if s.fc.step < s.dTop then s.fc.step + 1 else s.fc.step } }

/-! ## Timeout record (R121, R122) -/

/-- A FAULT enters the timeout record: an empty record is filled, a full one counts FURTHER (R122). -/
def TimeoutRecord.enter (t : TimeoutRecord) (k : TimeoutKind) (addr : Nat) (c : OpClass) (b : Requester) : TimeoutRecord :=
  match t.kind with
  | none => { kind := some k, addr := addr, cls := c, requester := some b, further := 0 }
  | some _ => { t with further := min (t.further + 1) 255 }

/-- The FAULT of an op is entered in the timeout record, and FLASH_FAULT is posted to the formatter (R121). -/
def State.recordFault (s : State) (k : TimeoutKind) (r : FlashRequest) : State :=
  State.postFormatter
    { s with fc := { s.fc with timeout := s.fc.timeout.enter k r.addr r.cls r.purpose.requester } } .flashFault

end Sys2Proof.Machine
end

