-- ==== Sys2Proof/Machine/Cache.lean ====
section
/-! DEFINITION. The group cache of the integrity unit (4.3): claims, the WAIT_GROUP list, eviction and drops. -/

namespace Sys2Proof.Machine

/-- A key of the group cache: a window and a group number (R67). -/
abbrev GroupKey := WindowKey × Nat

/-- The FILLING or VALID entry that holds a key (R67: at most one). -/
def State.entryOf (s : State) (k : GroupKey) : Option (Fin 8) :=
  allEntries.find? (fun e =>
    ((s.entry e).state == .filling || (s.entry e).state == .valid) && (s.entry e).key == some k)

/-- The entry a new key may take: the lowest-numbered FREE one, else the VALID one without a claim nearest the
least-recent end (R68). -/
def State.entryToFill (s : State) : Option (Fin 8) :=
  match allEntries.find? (fun e => (s.entry e).state == .free) with
  | some e => some e
  | none => s.iu.lru.find? (fun e => (s.entry e).state == .valid && (s.entry e).claims == 0)

/-- An entry leaves the LRU order (R68, R72). -/
def State.cacheLeave (s : State) (e : Fin 8) : State :=
  { s with iu := { s.iu with lru := s.iu.lru.filter (fun x => x != e) } }

/-- An entry moves to the most-recent end of the LRU order, or joins it there (R67). -/
def State.cacheTouch (s : State) (e : Fin 8) : State :=
  { s with iu := { s.iu with lru := s.iu.lru.filter (fun x => x != e) ++ [e] } }

/-- An entry becomes FREE (R67). -/
def State.freeEntry (s : State) (e : Fin 8) : State := (s.modEntry e (fun _ => CacheEntry.empty)).cacheLeave e

/-- The group READ of an entry is requested at its READ CLASS (R73). -/
def State.requestGroup (s : State) (e : Fin 8) (addr : Nat) : State :=
  s.request { purpose := .group e, addr := addr, len := 2048, cls := (s.entry e).cls, live := true }

/-- The records that claim the entry of a group key, in the order of their creation (R71, R74). Where one group fill ends
several records, the spec gives no order in which they end; the model takes this one (DESIGN CHOICE, log entry 11). -/
def State.claimants (s : State) (k : GroupKey) : List FillRecord :=
  s.pb.records.filter (fun r => r.win == k.1 && r.page / 64 == k.2 && r.state != .waitGroup)

/-- The highest class among the claimants of a FILLING entry, of which one has class `c` (R70). A seal group check, of class
SWEEP, adds nothing to the highest. -/
def State.entryClass (s : State) (k : GroupKey) (c : OpClass) : OpClass :=
  (s.claimants k).foldl (fun m r => m.higher r.cls) c

/-- A further record of class `c` claims the FILLING entry of a key, or a claiming record's class becomes `c`: READ CLASS
becomes the highest class among the claimants, and its waiting READ moves to that class (R70; log entry 26). -/
def State.raiseEntry (s : State) (e : Fin 8) (k : GroupKey) (c : OpClass) : State :=
  let c' := s.entryClass k c
  (s.modEntry e (fun x => { x with cls := c' })).raiseRequest (.group e) c'

/-- A claim of a group key by a claimant of class `c`, whose group lies at `addr` in flash; answers READY for a claim
on a VALID entry, QUEUED for one on a FILLING entry, WAIT_GROUP where no entry can be had (R68). -/
def State.claimGroup (s : State) (k : GroupKey) (addr : Nat) (c : OpClass) : State × RecordState :=
  match s.entryOf k with
  | some e =>
    if (s.entry e).state = .valid then
      ((s.modEntry e (fun x => { x with claims := x.claims + 1 })).cacheTouch e, .ready)
    else ((s.modEntry e (fun x => { x with claims := x.claims + 1 })).raiseEntry e k c, .queued)
  | none =>
    match s.entryToFill with
    | some e =>
      let s := (s.modEntry e (fun _ =>
        { state := .filling, key := some k, data := [], claims := 1, reRead := false, cls := c })).cacheLeave e
      (s.requestGroup e addr, .queued)
    | none => (s, .waitGroup)

/-- A record enters READY: it holds a claim on a VALID entry and requests its page read at its class (R76, R90). -/
def State.becomeReady (s : State) (r : FillRecord) : State :=
  (s.modRecord r.win r.page (fun r => { r with state := .ready })).request
    { purpose := .page r.win r.page, addr := r.pageAddr, len := 4096, cls := r.cls, live := true }

/-- A member leaves the WAIT_GROUP list (R69). -/
def State.leaveWaitGroup (s : State) (x : GroupWaiter) : State :=
  { s with iu := { s.iu with waitGroup := s.iu.waitGroup.filter (fun y => y != x) } }

/-- A member joins the WAIT_GROUP list (R69). -/
def State.joinWaitGroup (s : State) (x : GroupWaiter) : State :=
  { s with iu := { s.iu with waitGroup := s.iu.waitGroup ++ [x] } }

/-- The seal group check of the seal job ends as a match: GROUP CLAIM is held (R171). -/
def State.sealGroupChecked (s : State) : State :=
  { s with sw := { s.sw with inFlight := .none, job := s.sw.job.map (fun j => { j with claim := true }) } }

/-- A record claims its group; where no entry can be had it joins the WAIT_GROUP list (R68, R69). -/
def State.claimForRecord (s : State) (r : FillRecord) : State :=
  match s.claimGroup (r.win, r.page / 64) r.groupAddr r.cls with
  | (s, .ready) => s.becomeReady r
  | (s, .waitGroup) => (s.modRecord r.win r.page (fun r => { r with state := .waitGroup })).joinWaitGroup (.record r.win r.page)
  | (s, st) => s.modRecord r.win r.page (fun r => { r with state := st })

/-- The group a member of the WAIT_GROUP list wants. -/
def State.waiterKey (s : State) : GroupWaiter → Option GroupKey
  | .record w i => some (w, i / 64)
  | .sealCheck => s.sw.job.map (fun j => (.staging j.handover.win, j.group))

/-- The class of a member of the WAIT_GROUP list (R69, R171). -/
def State.waiterClass (s : State) : GroupWaiter → OpClass
  | .record w i => ((s.record w i).map (·.cls)).getD .sweep
  | .sealCheck => .sweep

/-- The WAIT_GROUP list in its order of service: by class, and within a class by the order of entry (R69). -/
def State.waitOrder (s : State) : List GroupWaiter :=
  allClasses.flatMap (fun c => s.iu.waitGroup.filter (fun x => s.waiterClass x == c))

/-- The flash address of a group of a staged slot (R73). -/
def State.stagedGroupAddr (s : State) (w : StagingId) (g : Nat) : Nat := (s.staging w).base + 8192 + g * 2048

/-- A member of the WAIT_GROUP list tries to claim; none if no entry can be had (R68, R69). -/
def State.claimWaiter (s : State) (x : GroupWaiter) : Option State :=
  match x with
  | .record w i =>
    (match s.record w i with
     | some r =>
       (match s.claimGroup (w, i / 64) r.groupAddr r.cls with
        | (s, .ready) => some ((s.leaveWaitGroup x).becomeReady r)
        | (_, .waitGroup) => none
        | (s, st) => some ((s.leaveWaitGroup x).modRecord w i (fun r => { r with state := st })))
     | none => some (s.leaveWaitGroup x))
  | .sealCheck =>
    (match s.sw.job with
     | some j =>
       (match s.claimGroup (.staging j.handover.win, j.group) (s.stagedGroupAddr j.handover.win j.group) .sweep with
        | (s, .ready) => some (s.leaveWaitGroup x).sealGroupChecked
        | (_, .waitGroup) => none
        | (s, _) => some (s.leaveWaitGroup x))
     | none => some (s.leaveWaitGroup x))

/-- One pass over the WAIT_GROUP list: first every member whose group has the key of an entry now FILLING or VALID,
then the rest in list order until one finds no entry (R69). Each round takes one member, so `fuel` rounds suffice
for a list of that length. -/
def State.serveRounds : Nat → State → State
  | 0, s => s
  | n + 1, s =>
    let order := s.waitOrder
    let keyed := order.find? (fun x => ((s.waiterKey x).bind s.entryOf).isSome)
    match (match keyed with
           | some x => some x
           | none => order.head?) with
    | none => s
    | some x =>
      (match s.claimWaiter x with
       | some s' => State.serveRounds n s'
       | none => s)

/-- The WAIT_GROUP list is served (R69). -/
def State.serveWaitGroup (s : State) : State := State.serveRounds s.iu.waitGroup.length s

/-- A claim on a group ends; the WAIT_GROUP list is served when a VALID entry's CLAIMS reaches 0 (R69, R71). -/
def State.releaseClaim (s : State) (k : GroupKey) : State :=
  match s.entryOf k with
  | some e =>
    let s := s.modEntry e (fun x => { x with claims := x.claims - 1 })
    if (s.entry e).state = .valid ∧ (s.entry e).claims = 0 then s.serveWaitGroup else s
  | none => s

/-- One entry of a window is dropped (R72): a VALID one becomes FREE; a FILLING one becomes FREE and its waiting READ is
withdrawn, or DROPPED while its READ runs. -/
def State.dropEntry (s : State) (e : Fin 8) : State :=
  match (s.entry e).state with
  | .valid => s.freeEntry e
  | .filling =>
    if s.fc.carries (.group e) then s.modEntry e (fun x => { x with state := .dropped, key := none })
    else (s.withdraw (.group e)).freeEntry e
  | .free => s
  | .dropped => s

/-- The cache entries of one window are dropped, and the WAIT_GROUP list is served (R72). -/
def State.dropEntries (s : State) (w : WindowKey) : State :=
  ((allEntries.filter (fun e => ((s.entry e).key.map Prod.fst) == some w)).foldl State.dropEntry s).serveWaitGroup

end Sys2Proof.Machine
end

