-- ==== Sys2Proof/Machine/Fill.lean ====
section
/-! DEFINITION. Fill records and the READ stream's needs (5.2, 5.3, 5.6): creation, joining, raising, promotion,
leaving, cancelling; and the classification of a READ's pages (3.2, 3.4). -/

namespace Sys2Proof.Machine

/-! ## Streams -/

/-- Replace a port's READ in progress. -/
def State.setStream (s : State) (p : PortId) (st : ReadStream) : State := s.modPort p (fun u => { u with stream := some st })

/-- Change how a port's READ is served from its next byte on. -/
def State.setServe (s : State) (p : PortId) (v : Serve) : State :=
  s.modPort p (fun u => { u with stream := u.stream.map (fun st => { st with serve := v }) })

/-- How a port's READ is served, if it has one. -/
def State.serving (s : State) (p : PortId) : Option Serve := (s.port p).stream.map (·.serve)

/-- A port's stream reaches a present page: it pins the slot and is served from it (R83). -/
def State.pinFor (s : State) (p : PortId) (n : Fin 64) : State := (s.pinSlot n).setServe p (.slot n)

/-- The violation report of a passed byte: a READ reports each kind once, at the first byte of that kind (R60). -/
def State.reportByte (s : State) (p : PortId) (st : ReadStream) (r : ReadResult) : State :=
  match r with
  | .outside => if st.reportedOutside then s else s.violate p .outside ((st.start + st.passed) % 268435456)
  | .withheld => if st.reportedWithheld then s else s.violate p .withheld ((st.start + st.passed) % 268435456)
  | .ok => s
  | .raw => s
  | .fault => s

/-- The byte a port waits for on a fill that ends BAD is answered WITHHELD. It counts as passed at that moment, so that its
report is made then, if the READ has not made one yet, and stands if select is released next (R60, R103, R105). -/
def State.answerBad (s : State) (p : PortId) : State :=
  match (s.port p).stream with
  | none => s
  | some st =>
    (s.reportByte p st .withheld).setStream p { st with serve := .answer .withheld, reportedWithheld := true }

/-! ## Records -/

/-- The flash address of an image page (R6, R51, R76). A staged page lies at the PAGE AREA OFFSET of the seal job. -/
def State.pageAddrOf (s : State) : WindowKey → Nat → Nat
  | .image t, i => (s.image t).pageBase + i * 4096
  | .staging w, i =>
    (s.staging w).base + ((s.sw.job.map (fun j => j.handover.pageAreaOffset)).getD 0) * 4096 + i * 4096

/-- The flash address of the group of an image page (R6, R51, R73). -/
def State.groupAddrOf (s : State) : WindowKey → Nat → Nat
  | .image t, i => (s.image t).groupBase + (i / 64) * 2048
  | .staging w, i => s.stagedGroupAddr w (i / 64)

/-- A fill record is created and handed to the integrity unit, which claims its group (R68, R91, R97, R98). -/
def State.createRecord (s : State) (w : WindowKey) (i : Nat) (c : OpClass) (origin holdFor : Option PortId)
    (waiters : List PortId) : State :=
  let r : FillRecord :=
    { win := w, page := i, cls := c, origin := origin, sweepMade := c == .sweep, holdFor := holdFor,
      waiters := waiters, state := .waitGroup, reRead := false,
      dest := if c = .sweep then .scratch else .slot none,
      pageAddr := s.pageAddrOf w i, groupAddr := s.groupAddrOf w i }
  (State.claimForRecord { s with pb := { s.pb with records := s.pb.records ++ [r] } } r).serveWaitGroup

/-- The number of records of a class (R89, R108). -/
def State.recordCount (s : State) (c : OpClass) : Nat := (s.pb.records.filter (fun r => r.cls == c)).length

/-- Whether a port is origin of a DEMAND record (R89). -/
def State.isOrigin (s : State) (p : PortId) : Bool :=
  s.pb.records.any (fun r => r.cls == .demand && r.origin == some p)

/-- A record's class is raised (R92, R94, R95): a sweep-made record's page will end in a slot, and the raise acts on the
record by its state. -/
def State.raiseRecord (s : State) (w : WindowKey) (i : Nat) (c : OpClass) : State :=
  match s.record w i with
  | none => s
  | some r =>
    let s := s.modRecord w i (fun r => { r with cls := c, dest := if r.dest = .scratch then .scratchThenSlot else r.dest })
    match r.state with
    | .waitGroup => s
    | .queued =>
      (match s.entryOf (w, i / 64) with
       | some e => s.raiseEntry e (w, i / 64) c
       | none => s)
    | .ready => s.raiseRequest (.page w i) c
    | .reading => s
    | .parked => s.raiseAtHead (.page w i) c

/-- A port joins a record's waiters (R92). -/
def State.joinRecord (s : State) (p : PortId) (t : Tag) (i : Nat) : State :=
  (s.modRecord (.image t) i (fun r => { r with waiters := if r.waiters.contains p then r.waiters else r.waiters ++ [p] })).setServe
    p (.stallFill t i)

/-- A port's need for a page of an ACCEPTED or FAILED window (R91 to R95). -/
def State.need (s : State) (p : PortId) (t : Tag) (i : Nat) : State :=
  match s.present t i with
  | some n => s.pinFor p n
  | none =>
    if s.pageState t i = .bad then s.setServe p (.answer .withheld)
    else
      match s.record (.image t) i with
      | some r =>
        if r.cls = .demand then s.joinRecord p t i
        else if s.isOrigin p then s.setServe p (.stallOrigin t i)
        else
          ((s.joinRecord p t i).modRecord (.image t) i (fun r => { r with origin := some p })).raiseRecord
            (.image t) i .demand
      | none =>
        if s.isOrigin p then s.setServe p (.stallOrigin t i)
        else (s.setServe p (.stallFill t i)).createRecord (.image t) i .demand (some p) none [p]

/-- A port's origin-wait ends when the record it is origin of ends: its need is handled afresh (R93). -/
def State.originRetry (s : State) (origin : Option PortId) : State :=
  match origin with
  | some p =>
    (match s.serving p with
     | some (.stallOrigin t i) => s.need p t i
     | _ => s)
  | none => s

/-! ## Classification (R47, R48, R51, R52) -/

/-- The window of a port's set that contains a logical page. -/
inductive PageWindow where
  | none
  | image (t : Tag)
  | staging (w : StagingId)
  | factory
  deriving DecidableEq, Repr

/-- The logical span of an image window, by its state (R47). -/
def ImageWindow.spans (w : ImageWindow) (page : Nat) : Bool :=
  match w.state with
  | .unused => false
  | .checking => w.loadBase ≤ page && page < tentativeEnd w.loadBase
  | .rejected => w.loadBase ≤ page && page < tentativeEnd w.loadBase
  | .accepted => w.loadBase ≤ page && page < w.loadBase + w.pageCount
  | .failed => w.loadBase ≤ page && page < w.loadBase + w.pageCount

/-- The base page of a staging window (R47). -/
def stagingBasePage (w : StagingId) : Nat := 49152 + 8192 * w.val

/-- The window of a port's set that contains a logical page (R47, R48). -/
def State.windowAt (s : State) (p : PortId) (page : Nat) : PageWindow :=
  if s.factory then (if p = 0 ∧ page < 8192 then .factory else .none)
  else
    match allTags.find? (fun t => (s.image t).owner == some p && (s.image t).spans page) with
    | some t => .image t
    | none =>
      if s.formatterPort = some p ∧ 49152 ≤ page ∧ page < 65536 then
        (if page < 57344 then .staging 0 else .staging 1)
      else .none

/-- A RAW run starts: one flash READ of kind RAW at class DEMAND covers the rest of the READ in the window, which ends
at logical page `endPage` and lies in flash from `addr` (R53). -/
def State.startRaw (s : State) (p : PortId) (st : ReadStream) (logical endPage addr : Nat) : State :=
  let len := min (st.length - st.passed) (endPage * 4096 - logical)
  (s.setStream p { st with serve := .raw [] false, stopAt := st.passed + len }).request
    { purpose := .raw p, addr := addr, len := len, cls := .demand, live := true }

/-- The running RAW READ has delivered these bytes, short of its last one, after those delivered before: each is ready for the
port as the flash delivers it (R53, R109); those of an abandoned READ are discarded (R57). -/
def State.rawDelivers (s : State) (bytes : List Byte) : State :=
  match s.fc.port with
  | .op c =>
    (match c.req.purpose with
     | .raw p =>
       let got := bytes.take (c.req.len - c.delivered - 1)
       let s := { s with fc := { s.fc with port := .op { c with delivered := c.delivered + got.length } } }
       (match c.req.live, s.serving p with
        | true, some (.raw ready f) => s.setServe p (.raw (ready ++ got) f)
        | _, _ => s)
     | _ => s)
  | .idle => s
  | .reset _ => s

/-- The stream of a port reaches a new page: the page is looked up and classified (R50, R52). -/
def State.classify (s : State) (p : PortId) : State :=
  match (s.port p).stream with
  | none => s
  | some st =>
    let logical := (st.start + st.passed) % 268435456
    let page := logical / 4096
    let stop := min st.length (st.passed + (4096 - logical % 4096))
    let answer (r : ReadResult) := s.setStream p { st with serve := .answer r, stopAt := stop }
    match s.windowAt p page with
    | .none => answer .outside
    | .factory => s.startRaw p st logical 8192 logical
    | .staging w =>
      let win := s.staging w
      let x := page - stagingBasePage w
      if win.sizePages ≤ x then answer .outside
      else
        (match win.state with
         | .opened => s.startRaw p st logical (stagingBasePage w + win.sizePages) (win.base + x * 4096 + logical % 4096)
         | .sealed => s.startRaw p st logical (stagingBasePage w + win.sizePages) (win.base + x * 4096 + logical % 4096)
         | .sealFailed => s.startRaw p st logical (stagingBasePage w + win.sizePages) (win.base + x * 4096 + logical % 4096)
         | .sealing => answer .withheld
         | .free => answer .outside
         | .discarded => answer .outside)
    | .image t =>
      (match (s.image t).state with
       | .unused => answer .outside
       | .checking => s.setStream p { st with serve := .stallChecking t, stopAt := stop }
       | .rejected => answer .withheld
       | .accepted =>
         let i := page - (s.image t).loadBase
         if s.pageState t i = .bad then answer .withheld
         else (s.setStream p { st with serve := .stallFill t i, stopAt := stop }).need p t i
       | .failed =>
         let i := page - (s.image t).loadBase
         if s.pageState t i = .bad then answer .withheld
         else (s.setStream p { st with serve := .stallFill t i, stopAt := stop }).need p t i)

/-- The READs stalled on a window's tentative span are classified again when its verdict is written (R54). -/
def State.resolveStalled (s : State) (t : Tag) : State :=
  allPorts.foldl (fun s p => if s.serving p = some (.stallChecking t) then s.classify p else s) s

/-! ## Leaving and ending frames (R57, R83, R105, R127, R130) -/

/-- A port leaves every waiter set (R105). -/
def State.leaveRecords (s : State) (p : PortId) : State :=
  { s with pb := { s.pb with records := s.pb.records.map (fun r => { r with waiters := r.waiters.filter (fun q => q != p) }) } }

/-- A READ is abandoned (R57): its bytes are dropped, the port leaves its waiter set and drops its pin, and its RAW
read is withdrawn, or discarded if it runs. -/
def State.abandonRead (s : State) (p : PortId) : State :=
  match s.serving p with
  | none => s
  | some v =>
    let s := s.leaveRecords p
    let s := match v with
      | .slot n => s.unpinSlot n
      | .raw _ _ => (s.withdraw (.raw p)).loseRunning (.raw p)
      | .answer _ => s
      | .stallChecking _ => s
      | .stallFill _ _ => s
      | .stallOrigin _ _ => s
    s.modPort p (fun u => { u with stream := none })

/-- The frame under way on a port ends (R127, R130): a frame not yet taken is discarded, a READ is abandoned, a command
goes on in BACKGROUND or loses the rest of its response. -/
def State.endFrame (s : State) (p : PortId) : State :=
  match (s.port p).frame with
  | .idle => s
  | .receiving => s.modPort p (fun u => { u with frame := .idle, frameBytes := [] })
  | .deferred => s.modPort p (fun u => { u with frame := .idle, frameBytes := [] })
  | .executing code => s.modPort p (fun u => { u with frame := .idle, background := some code })
  | .responding => (s.abandonRead p).modPort p (fun u => { u with frame := .idle, response := [] })

/-! ## Cancelling (R80, R106) -/

/-- A record leaves the fill queue (R89). -/
def State.removeRecord (s : State) (w : WindowKey) (i : Nat) : State :=
  { s with pb := { s.pb with records := s.pb.records.filter (fun r => !(r.win == w && r.page == i)) } }

/-- The destination of a record that does not end GOOD is freed: a FILLING slot becomes FREE, scratch content is
dropped (R103, R104, R106). -/
def State.freeDestination (s : State) (r : FillRecord) : State :=
  match r.dest with
  | .slot (some n) => s.freeSlot n
  | .slot none => s
  | .scratch => { s with pb := { s.pb with scratch := [] } }
  | .scratchThenSlot => { s with pb := { s.pb with scratch := [] } }

/-- The waiters of a record are answered with one result for their bytes of the page (R104, R106). -/
def State.answerWaiters (s : State) (r : FillRecord) (v : ReadResult) : State :=
  r.waiters.foldl (fun s p => s.setServe p (.answer v)) s

/-- A record is withdrawn from the integrity unit, by its state (R80). The record has left the fill queue. -/
def State.withdrawRecord (s : State) (r : FillRecord) : State :=
  match r.state with
  | .waitGroup => s.leaveWaitGroup (.record r.win r.page)
  | .queued => s.releaseClaim (r.win, r.page / 64)
  | .ready => (s.withdraw (.page r.win r.page)).releaseClaim (r.win, r.page / 64)
  | .reading => ((s.loseRunning (.page r.win r.page)).dropLane).releaseClaim (r.win, r.page / 64)
  | .parked =>
    State.releaseClaim { (s.withdraw (.page r.win r.page)) with iu := { s.iu with park := none } } (r.win, r.page / 64)

/-- A record is cancelled (R80, R106). A cancelled record of the sweep ends IN FLIGHT without a report (R168). An origin-wait it
ends (R93) is handled after the WAIT_GROUP list has been served for its released claim (DESIGN CHOICE, log entry 11). -/
def State.cancelRecord (s : State) (w : WindowKey) (i : Nat) : State :=
  match s.record w i with
  | none => s
  | some r =>
    let s := (((s.removeRecord w i).withdrawRecord r).freeDestination r).answerWaiters r .withheld
    let s := if s.sw.inFlight = .record w i then { s with sw := { s.sw with inFlight := .none } } else s
    s.originRetry r.origin

/-- The holds of a port are dropped (R107): its slots join the LRU list, its prefetch entries go, its PREFETCH records
are cancelled, and its DEMAND records lose HOLD FOR. The spec gives the cancellations no order: the model takes the order of
the records' creation, and each released claim serves the WAIT_GROUP list at once (DESIGN CHOICE, log entry 11). -/
def State.dropHolds (s : State) (p : PortId) : State :=
  let s := s.releaseHolds p
  let s := { s with pb := { s.pb with prefetch := s.pb.prefetch.filter (fun e => e.1 != p) } }
  let s := (s.pb.records.filter (fun r => r.cls == .prefetch && r.holdFor == some p)).foldl
    (fun s r => s.cancelRecord r.win r.page) s
  { s with pb := { s.pb with records := s.pb.records.map (fun r => if r.holdFor = some p then { r with holdFor := none } else r) } }

end Sys2Proof.Machine
end

