-- ==== Sys2Proof/Machine/Lifecycle.lean ====
section
/-! DEFINITION. The lifecycle unit (chapter 8): holds and release, FAULTED, verdict and window reports; the prefetch
list (R97); and the window unit's page and window reports (R44, R65, R66). -/

namespace Sys2Proof.Machine

/-! ## Port states -/

/-- A port's part of the config record. -/
def State.portConfig (s : State) (p : PortId) : Option PortConfig := s.cfg.map (fun c => c.ports[p])

/-- Whether the port's ON-FAIL ACTION is HOLD. -/
def State.onFailHold (s : State) (p : PortId) : Bool :=
  match s.portConfig p with
  | some c => c.onFail == .hold
  | none => true

/-- A port becomes FAULTED (R154, R158, R161): from PREFETCH its holds are dropped; from RUNNING or CONFIRMED the frame
under way ends and the deadline timer stops. The state is reported to the permit unit. -/
def State.faultPort (s : State) (p : PortId) : State :=
  let s := match (s.life p).state with
    | .prefetch => s.dropHolds p
    | .running => s.endFrame p
    | .confirmed => s.endFrame p
    | .unused => s
    | .held => s
    | .faulted => s
  (s.modLife p (fun l => { l with state := .faulted, heldPages := [], deadline := none })).evalPermit

/-- A port enters RUNNING (R153): its holds are released, E becomes 0, its deadline timer starts, HOLD is released and
the port unit begins answering frames; a select already active carries no frame (R127). -/
def State.enterRunning (s : State) (p : PortId) : State :=
  let timer := match s.portConfig p with
    | some c => if c.deadline = 0 then none else some (c.deadline * 100)
    | none => none
  let s := s.releaseHolds p
  let s := s.modLife p (fun l => { l with state := .running, heldPages := [], deadline := timer })
  let s := s.modPort p (fun u => { u with e := 0, frame := .idle, ignoring := u.selectActive })
  s.evalPermit

/-- The windows a port owns. -/
def State.windowsOf (s : State) (p : PortId) : List Tag := allTags.filter (fun t => (s.image t).owner == some p)

/-- No boot-set page of a port is BAD (R152, condition 3). -/
def State.bootSetClean (s : State) (p : PortId) : Bool :=
  match (s.life p).bootTag, (s.life p).bootSet with
  | some t, some n => (List.range n).all (fun i => s.pageState t i != .bad)
  | _, _ => true

/-- The release condition of a PREFETCH port (R152). -/
def State.releaseCondition (s : State) (p : PortId) : Bool :=
  (match (s.life p).bootSet with
   | some n => (s.life p).heldPages.length == n
   | none => false)
  && (s.windowsOf p).all (fun t => !(s.image t).checkBeforeRelease ||
       ((s.image t).state == .accepted && (s.image t).good == (s.image t).pageCount))
  && s.bootSetClean p

/-- A window without check-before-release of the port is FAILED under on-fail HOLD (R152). -/
def State.releaseBlocked (s : State) (p : PortId) : Bool :=
  s.onFailHold p && (s.windowsOf p).any (fun t => !(s.image t).checkBeforeRelease && (s.image t).state == .failed)

/-- A check-before-release window of the port is REJECTED or FAILED (R152), be it since before the port was PREFETCH. -/
def State.checkLost (s : State) (p : PortId) : Bool :=
  (s.windowsOf p).any (fun t => (s.image t).checkBeforeRelease &&
    ((s.image t).state == .rejected || (s.image t).state == .failed))

/-- The release condition of a port is evaluated (R152): a PREFETCH port becomes FAULTED where a check-before-release window
is lost; where the condition holds, it enters RUNNING, or becomes FAULTED. -/
def State.evalRelease (s : State) (p : PortId) : State :=
  if (s.life p).state = .prefetch then
    if s.checkLost p then s.faultPort p
    else if s.releaseCondition p then (if s.releaseBlocked p then s.faultPort p else s.enterRunning p)
    else s
  else s

/-- A boot-set page is held for a port (R151). -/
def State.pageHeld (s : State) (p : PortId) (i : Nat) : State :=
  if (s.life p).state = .prefetch then
    (s.modLife p (fun l => { l with heldPages := if l.heldPages.contains i then l.heldPages else l.heldPages ++ [i] })).evalRelease p
  else s

/-- A boot-set page of a port is BAD, or a slot held for it is discarded (R151, R154). -/
def State.bootPageBad (s : State) (p : PortId) : State :=
  if (s.life p).state = .prefetch then s.faultPort p else s

/-! ## The prefetch list (R97) -/

/-- The head entry of the prefetch list is treated (R97, R92, R94). -/
def State.servePrefetch (s : State) (p : PortId) (t : Tag) (i : Nat) : State :=
  match s.present t i with
  | some n => (s.holdSlot n p).pageHeld p i
  | none =>
    if s.pageState t i = .bad then s.bootPageBad p
    else
      match s.record (.image t) i with
      | some r =>
        let s := s.modRecord (.image t) i (fun r => { r with holdFor := some p })
        if r.cls = .sweep then s.raiseRecord (.image t) i .prefetch else s
      | none => s.createRecord (.image t) i .prefetch none (some p) []

/-- The prefetch list is served while it is not empty and fewer than 8 PREFETCH records exist (R97); each round takes
one entry. -/
def State.prefetchRounds : Nat → State → State
  | 0, s => s
  | n + 1, s =>
    match s.pb.prefetch with
    | [] => s
    | (p, t, i) :: rest =>
      if s.recordCount .prefetch < 8 then
        State.prefetchRounds n (State.servePrefetch { s with pb := { s.pb with prefetch := rest } } p t i)
      else s

/-- The prefetch list is served (R97). -/
def State.serveList (s : State) : State := State.prefetchRounds s.pb.prefetch.length s

/-! ## The boot set (R96, R150) -/

/-- One boot-set page is handed over: a present page is held, a page that has to be read joins the prefetch list (R96). -/
def State.handOverPage (s : State) (p : PortId) (t : Tag) (i : Nat) : State :=
  match s.present t i with
  | some n => s.holdSlot n p
  | none =>
    if s.pageState t i = .bad then s else { s with pb := { s.pb with prefetch := s.pb.prefetch ++ [(p, t, i)] } }

/-- The report on a boot-set page that the hand-over finds held or BAD reaches the lifecycle unit (R96, R151). -/
def State.reportBootPage (s : State) (p : PortId) (t : Tag) (i : Nat) : State :=
  if (s.present t i).isSome then s.pageHeld p i else if s.pageState t i = .bad then s.bootPageBad p else s

/-- The boot set of a port is handed over; the reports on its pages are taken once it has been, and the prefetch list is
served (R96, R97, R150). -/
def State.handOver (s : State) (p : PortId) (t : Tag) (bootSet : Nat) : State :=
  let s := (List.range bootSet).foldl (fun s i => s.handOverPage p t i) s
  ((List.range bootSet).foldl (fun s i => s.reportBootPage p t i) s).serveList

/-! ## Verdicts and window states (R150, R152, R161) -/

/-- The BOOT window of a HELD port is ACCEPTED: the port becomes PREFETCH and its boot set is handed over (R150). -/
def State.startPrefetch (s : State) (p : PortId) (t : Tag) (bootSet : Nat) : State :=
  let s := (s.modLife p (fun l => { l with state := .prefetch, bootSet := some bootSet, heldPages := [] })).evalPermit
  (s.handOver p t bootSet).evalRelease p

/-- The lifecycle unit acts on a verdict; `bootSet` is the accepted manifest's, none for REJECTED (R150, R152). -/
def State.lifeVerdict (s : State) (t : Tag) (bootSet : Option Nat) : State :=
  match (s.image t).owner with
  | none => s
  | some p =>
    match (s.life p).state, bootSet with
    | .held, some n => if (s.life p).bootTag = some t then s.startPrefetch p t n else s
    | .held, none =>
      if (s.life p).bootTag = some t ∨ (s.image t).checkBeforeRelease then s.faultPort p else s
    | .prefetch, some _ => s.evalRelease p
    | .prefetch, none => if (s.image t).checkBeforeRelease then s.faultPort p else s.evalRelease p
    | _, _ => s

/-- The lifecycle unit acts on a window's becoming FAILED (R150, R152, R161). -/
def State.lifeFailed (s : State) (t : Tag) : State :=
  match (s.image t).owner with
  | none => s
  | some p =>
    match (s.life p).state with
    | .held => if (s.image t).checkBeforeRelease then s.faultPort p else s
    | .prefetch => if (s.image t).checkBeforeRelease then s.faultPort p else s.evalRelease p
    | .running => if s.onFailHold p then s.faultPort p else s
    | .confirmed => if s.onFailHold p then s.faultPort p else s
    | .unused => s
    | .faulted => s

/-! ## Page and window reports (R44, R65, R66, R178) -/

/-- An ACCEPTED window becomes FAILED (R44): the latch is set if it is print-required (R178), the permit condition is
evaluated, and the lifecycle unit acts. R44 and R177 give the two units no order: the permit unit takes its report first, so
that an owner the lifecycle unit is about to make FAULTED still gets the PERMIT of the fall (R179; DESIGN CHOICE, log
entry 11). -/
def State.failWindow (s : State) (t : Tag) : State :=
  let s := s.modImage t (fun w => { w with state := .failed })
  let s := if (s.image t).printRequired then { s with pu := { s.pu with latch := true } } else s
  s.evalPermit.lifeFailed t

/-- Whether page reports of a window are taken (R66). -/
def ImageWindow.takesReports (w : ImageWindow) : Bool := w.state == .accepted || w.state == .failed

/-- The window unit writes a GOOD report into the page's entry and the counts (R65, R66). -/
def State.markGood (s : State) (t : Tag) (i : Nat) : State :=
  if (s.image t).takesReports ∧ s.pageState t i = .unchecked then
    (s.setPageState t i .good).modImage t (fun w => { w with good := w.good + 1 })
  else s

/-- The window unit writes BAD into a page's entry and the counts (R65, R66). -/
def State.markBad (s : State) (t : Tag) (i : Nat) : State :=
  match s.pageState t i with
  | .unchecked => (s.setPageState t i .bad).modImage t (fun w => { w with bad := w.bad + 1 })
  | .good => (s.setPageState t i .bad).modImage t (fun w => { w with good := w.good - 1, bad := w.bad + 1 })
  | .bad => s

/-- A window's counts are reported: the permit unit evaluates its condition, and the release condition of the owner of
a check-before-release window is evaluated (R152, R177), in this order (DESIGN CHOICE, log entry 11). -/
def State.reportCount (s : State) (t : Tag) : State :=
  let s := s.evalPermit
  match (s.image t).owner with
  | some p => if (s.image t).checkBeforeRelease then s.evalRelease p else s
  | none => s

/-- Pages of a window are reported BAD; an ACCEPTED window becomes FAILED (R44, R74, R79). -/
def State.reportBad (s : State) (t : Tag) (pages : List Nat) : State :=
  if (s.image t).takesReports then
    let s := pages.foldl (fun s i => s.markBad t i) s
    if (s.image t).state = .accepted then s.failWindow t else s
  else s

end Sys2Proof.Machine
end

