-- ==== Sys2Proof/Machine/Sweep.lean ====
section
/-! DEFINITION. The sweep unit (9.1 to 9.3): the stream and its picks, the seal queue and the seal job. -/

namespace Sys2Proof.Machine

/-! ## The seal job (R170 to R175) -/

/-- STREAM STATE (Table 1-1). -/
inductive StreamState where
  | idle | active | parked
  deriving DecidableEq, Repr

/-- STREAM STATE follows IN FLIGHT (R164). -/
def State.streamState (s : State) : StreamState :=
  match s.sw.inFlight with
  | .none => .idle
  | .groupCheck => .active
  | .record w i =>
    if ((s.record w i).map (·.state)) = some .parked then .parked else .active

/-- The seal job is set from the head of the seal queue, with PAGES CHECKED 0 (R170). -/
def State.setJob (s : State) : State :=
  match s.sw.sealQueue with
  | h :: _ =>
    ({ s with sw := { s.sw with job := some { handover := h, group := 0, nextPage := 0, claim := false } } }).modStaging
      h.win (fun w => { w with checked := 0 })
  | [] => { s with sw := { s.sw with job := none } }

/-- A staging window is handed to the sweep unit: it joins the tail of the seal queue (R39, R170). -/
def State.queueSeal (s : State) (h : SealHandover) : State :=
  let s := { s with sw := { s.sw with sealQueue := s.sw.sealQueue ++ [h] } }
  if s.sw.job.isNone then s.setJob else s

/-- The seal job releases its GROUP CLAIM if it holds it (R172 to R175). -/
def State.releaseJobClaim (s : State) : State :=
  match s.sw.job with
  | some j =>
    if j.claim then
      State.releaseClaim { s with sw := { s.sw with job := some { j with claim := false } } }
        (.staging j.handover.win, j.group)
    else s
  | none => s

/-- The window unit takes a seal result (R186): the state, SEAL REASON and FIRST BAD PAGE are written, the group digest
store is emptied and SEAL_DONE is posted to the formatter's port. -/
def State.takeSealResult (s : State) (w : StagingId) (state : StagingState) (reason : Reason) (firstBad : Option Nat) : State :=
  State.postFormatter
    (s.modStaging w (fun x => { x with state := state, reason := reason, firstBad := firstBad, digests := [] })) .sealDone

/-- A seal ends in the sweep stream (R173). -/
def State.endSeal (s : State) (state : StagingState) (reason : Reason) (firstBad : Option Nat) : State :=
  match s.sw.job with
  | none => s
  | some j =>
    let w := j.handover.win
    let s := { s with sw := { s.sw with inFlight := .none } }
    let s := s.releaseJobClaim
    let s := s.takeSealResult w state reason firstBad
    let s := State.setJob { s with sw := { s.sw with sealQueue := s.sw.sealQueue.tail } }
    s.dropEntries (.staging w)

/-- How a fill or a group check ends. -/
inductive FillOutcome where
  | good | bad | fault
  deriving DecidableEq, Repr

/-- The sweep unit acts on a page checked (R172). -/
def State.sealPageChecked (s : State) (j : SealJob) : State :=
  let next := j.nextPage + 1
  let s := s.modStaging j.handover.win (fun w => { w with checked := w.checked + 1 })
  let s := { s with sw := { s.sw with job := some { j with nextPage := next }, inFlight := .none } }
  if next = j.handover.pageCount then s.endSeal .sealed .none none
  else if next % 64 = 0 then
    let s := s.releaseJobClaim
    { s with sw := { s.sw with job := s.sw.job.map (fun j => { j with group := j.group + 1 }) } }
  else s

/-- A record made by the sweep unit ends, and its end is reported (R98, R168, R172). -/
def State.sweepRecordEnds (s : State) (w : WindowKey) (i : Nat) (o : FillOutcome) : State :=
  match w with
  | .image _ =>
    if s.sw.inFlight = .record w i then { s with sw := { s.sw with inFlight := .none } } else s
  | .staging _ =>
    (match s.sw.job, o with
     | some j, .good => s.sealPageChecked j
     | some _, .bad => s.endSeal .sealFailed .pageMismatch (some i)
     | some _, .fault => s.endSeal .sealFailed .flashFault (some i)
     | none, _ => s)

/-- A seal group check fails (R171): the claim is gone with the entry. -/
def State.sealGroupFails (s : State) (g : Nat) (reason : Reason) : State :=
  State.endSeal { s with sw := { s.sw with job := s.sw.job.map (fun j => { j with claim := false }) } }
    .sealFailed reason (some (64 * g))

/-! ## Picks (R165 to R167, R170, R174) -/

/-- Tier 1: ACCEPTED windows with check-before-release whose owner is PREFETCH (R166). -/
def State.inTier1 (s : State) (t : Tag) : Bool :=
  (s.image t).state == .accepted && (s.image t).checkBeforeRelease &&
    (match (s.image t).owner with
     | some p => (s.life p).state == .prefetch
     | none => false)

/-- Tier 2: print-required windows, ACCEPTED or FAILED (R166). -/
def State.inTier2 (s : State) (t : Tag) : Bool :=
  (s.image t).printRequired && ((s.image t).state == .accepted || (s.image t).state == .failed)

/-- Tier 3: other ACCEPTED windows (R166). -/
def State.inTier3 (s : State) (t : Tag) : Bool := (s.image t).state == .accepted

/-- The image windows in the order they are offered work: a window stands in the first tier it meets (R166). -/
def State.offerOrder (s : State) : List Tag :=
  allTags.filter s.inTier1 ++ allTags.filter (fun t => s.inTier2 t && !s.inTier1 t)
    ++ allTags.filter (fun t => s.inTier3 t && !s.inTier1 t && !s.inTier2 t)

/-- The pages of one lap, from the cursor round to it (R167). -/
def lapPages (pageCount cursor : Nat) : List Nat := List.range' cursor (pageCount - cursor) ++ List.range (min cursor pageCount)

/-- The page a lap of a window asks for: its first UNCHECKED page that no record or present slot covers (R98, R167). -/
def State.lap (s : State) (t : Tag) : Option Nat :=
  (lapPages (s.image t).pageCount (s.image t).cursor).find? (fun i =>
    s.pageState t i == .unchecked && (s.record (.image t) i).isNone && (s.present t i).isNone)

/-- The first image window that yields work, with the page it asks for (R165, R167). -/
def State.imageWork (s : State) : Option (Tag × Nat) :=
  s.offerOrder.findSome? (fun t => (s.lap t).map (fun i => (t, i)))

/-- TARGET is a staging window. -/
def State.targetsSeal (s : State) : Bool :=
  match s.sw.target with
  | some (.staging _) => true
  | some (.image _) => false
  | none => false

/-- The stream takes a page of an image window: the seal job it displaces releases its claim, the cursor moves on, and a
SWEEP record is created (R98, R167, R174). R69 and R174 give the release and the new record's claim no order: the release
serves the WAIT_GROUP list first (DESIGN CHOICE, log entry 11). -/
def State.sweepPage (s : State) (t : Tag) (i : Nat) : State :=
  let s := if s.targetsSeal then s.releaseJobClaim else s
  let s := s.modImage t (fun w => { w with cursor := if i + 1 = w.pageCount then 0 else i + 1 })
  State.createRecord { s with sw := { s.sw with target := some (.image t), inFlight := .record (.image t) i } }
    (.image t) i .sweep none none []

/-- The seal job makes its page need, which always creates a record (R170). -/
def State.sealPage (s : State) (j : SealJob) : State :=
  let w : WindowKey := .staging j.handover.win
  State.createRecord { s with sw := { s.sw with target := some w, inFlight := .record w j.nextPage } }
    w j.nextPage .sweep none none []

/-- The seal job starts its group check (R171): a VALID entry ends it at once as a match; otherwise it waits for the
entry's fill, or joins the WAIT_GROUP list. -/
def State.startGroupCheck (s : State) (j : SealJob) : State :=
  let w : WindowKey := .staging j.handover.win
  let s := { s with sw := { s.sw with target := some w, inFlight := .groupCheck } }
  match s.claimGroup (w, j.group) (s.stagedGroupAddr j.handover.win j.group) .sweep with
  | (s, .ready) => s.sealGroupChecked
  | (s, .waitGroup) => s.joinWaitGroup .sealCheck
  | (s, _) => s

/-- A pick moment of the stream (R165, R170). A group check that ends at once is a pick moment again, so a pick takes
at most two rounds. -/
def State.pickRounds : Nat → State → State
  | 0, s => s
  | n + 1, s =>
    if s.sw.inFlight = .none then
      match s.imageWork with
      | some (t, i) => s.sweepPage t i
      | none =>
        (match s.sw.job with
         | some j =>
           if (s.staging j.handover.win).state = .sealing then
             (if j.claim then s.sealPage j else State.pickRounds n (s.startGroupCheck j))
           else { s with sw := { s.sw with target := none } }
         | none => { s with sw := { s.sw with target := none } })
    else s

/-- The stream picks its next work at a pick moment (R165). -/
def State.sweepPick (s : State) : State := State.pickRounds 2 s

/-- What closes a step in which needs, fills or states have changed: the prefetch list is served (R97), the stream
picks (R165), and PRINT_EN is driven from the permit condition (R177), in this order (DESIGN CHOICE, log entry 11). -/
def State.settle (s : State) : State := s.serveList.sweepPick.evalPermit

/-- A seal in the sweep stream is stopped (R175): a waiting window leaves the queue; the head's claim, record or group
check is ended. -/
def State.stopSeal (s : State) (w : StagingId) : State :=
  match s.sw.job with
  | none => s
  | some j =>
    if j.handover.win = w then
      let s := s.releaseJobClaim
      let s := match s.sw.inFlight with
        | .record k i => if k = WindowKey.staging w then s.cancelRecord k i else s
        | .groupCheck =>
          let s := { s with sw := { s.sw with inFlight := .none } }
          if s.iu.waitGroup.contains .sealCheck then s.leaveWaitGroup .sealCheck
          else s.releaseClaim (.staging w, j.group)
        | .none => s
      State.setJob { s with sw := { s.sw with sealQueue := s.sw.sealQueue.tail } }
    else { s with sw := { s.sw with sealQueue := s.sw.sealQueue.filter (fun h => h.win != w) } }

end Sys2Proof.Machine
end

