-- ==== Sys2Proof/Machine/FillEnd.lean ====
section
/-! DEFINITION. How fills and group fills end (4.4, 4.5, 5.5). -/

namespace Sys2Proof.Machine

/-- A slot is made VALID with a filled page, for a record that ends GOOD (R102): the slot named in its destination, or
one acquired for the scratch content. -/
def State.slotForGood (s : State) (r : FillRecord) (t : Tag) (data : List Byte) : Option (Fin 64 × State) :=
  match r.dest with
  | .slot (some n) => some (n, s.takeSlot n .valid t r.page data)
  | .slot none => none
  | .scratch => none
  | .scratchThenSlot =>
    (match s.acquirable with
     | some n => some (n, s.takeSlot n .valid t r.page data)
     | none => none)

/-- What follows for a slot made VALID (R102): it is held for HOLD FOR, each waiter pins it, and if neither it joins the
tail of the LRU list. -/
def State.settleSlot (s : State) (r : FillRecord) (n : Fin 64) : State :=
  let s : State := match r.holdFor with
    | some p => s.holdSlot n p
    | none => s
  let s : State := r.waiters.foldl (fun s p => s.pinFor p n) s
  if (s.bufferSlot n).pins = 0 ∧ (s.bufferSlot n).heldFor = none then s.lruJoin n else s

/-- The end of a record with SWEEP-MADE set is reported to the sweep unit (R98). -/
def State.reportSweep (s : State) (r : FillRecord) (o : FillOutcome) : State :=
  if r.sweepMade then s.sweepRecordEnds r.win r.page o else s

/-- The page of a record that ends GOOD goes to its slot, if it has one or gets one (R102). -/
def State.placeGood (s : State) (r : FillRecord) (t : Tag) (data : List Byte) : State :=
  match s.slotForGood r t data with
  | some (n, s) => s.settleSlot r n
  | none => s

/-- The scratch is empty once the record that filled it has ended (R98, R102). -/
def State.dropScratch (s : State) (r : FillRecord) : State :=
  if r.dest = .scratch ∨ r.dest = .scratchThenSlot then { s with pb := { s.pb with scratch := [] } } else s

/-- A slot that a record's end has held for a port is reported to the lifecycle unit (R102, R151). -/
def State.reportHeld (s : State) (r : FillRecord) : State :=
  match r.holdFor, r.dest with
  | some p, .slot _ => s.pageHeld p r.page
  | some p, .scratchThenSlot => s.pageHeld p r.page
  | some _, .scratch => s
  | none, _ => s

/-- A record ends GOOD (R76, R102). The claim it releases serves the WAIT_GROUP list before the origin-wait it ends (R93) makes
a record of its own; R69 lets either come first (DESIGN CHOICE, log entry 11). -/
def State.endGood (s : State) (r : FillRecord) (data : List Byte) : State :=
  match r.win with
  | .staging _ =>
    let s := State.removeRecord { s with pb := { s.pb with scratch := [] } } r.win r.page
    (s.releaseClaim (r.win, r.page / 64)).reportSweep r .good
  | .image t =>
    let s := (s.markGood t r.page).removeRecord r.win r.page
    let s := ((s.releaseClaim (r.win, r.page / 64)).placeGood r t data).dropScratch r
    (((s.reportSweep r .good).reportCount t).reportHeld r).originRetry r.origin

/-- A record leaves the fill queue BAD (R103); its page is BAD by now. The origin-waits it ends come after it. -/
def State.leaveBad (s : State) (r : FillRecord) : State :=
  let s := ((s.removeRecord r.win r.page).releaseClaim (r.win, r.page / 64)).freeDestination r
  let s := (r.waiters.foldl State.answerBad s).reportSweep r .bad
  match r.holdFor with
  | some p => s.bootPageBad p
  | none => s

/-- A record leaves the fill queue FAULT (R104). The origin-waits it ends come after it. -/
def State.leaveFault (s : State) (r : FillRecord) : State :=
  let s := ((s.removeRecord r.win r.page).releaseClaim (r.win, r.page / 64)).freeDestination r
  let s := (s.answerWaiters r .fault).reportSweep r .fault
  match r.holdFor, r.win with
  | some p, .image t => { s with pb := { s.pb with prefetch := s.pb.prefetch ++ [(p, t, r.page)] } }
  | _, _ => s

/-- A record ends BAD (R79, R103), and with it an origin-wait (R93), which is handled after the WAIT_GROUP list has been served
for the released claim (DESIGN CHOICE, log entry 11). -/
def State.endBad (s : State) (r : FillRecord) : State := (s.leaveBad r).originRetry r.origin

/-- A record ends FAULT (R76, R104), and with it an origin-wait (R93), which is handled after the WAIT_GROUP list has been
served for the released claim (DESIGN CHOICE, log entry 11). -/
def State.endFault (s : State) (r : FillRecord) : State := (s.leaveFault r).originRetry r.origin

/-- The seal group check in flight claims the entry of a group key (R171). -/
def State.sealChecks (s : State) (k : GroupKey) : Bool :=
  s.sw.inFlight == .groupCheck && !s.iu.waitGroup.contains .sealCheck &&
    (match s.sw.job with
     | some j => k == (.staging j.handover.win, j.group)
     | none => false)

/-- The entry g of a window's group digest store (R33, R73). -/
def State.heldDigest (s : State) (k : GroupKey) : Option Digest :=
  match k.1 with
  | .image t => (s.image t).digests[k.2]?
  | .staging w => (s.staging w).digests[k.2]?

/-- End each of these records, if it is still in the fill queue, in one way. -/
def State.endAll (s : State) (f : State → FillRecord → State) (l : List FillRecord) : State :=
  l.foldl (fun s r => match s.record r.win r.page with
    | some r' => f s r'
    | none => s) s

/-- A group fill matches (R73): the entry becomes VALID at the most-recent end, its claimants become READY, and the
WAIT_GROUP list is served. R73 and R90 give the claimants no order: a seal group check is taken first, then the records become
READY, and so request their page READs, in the order of their creation (DESIGN CHOICE, log entry 11). -/
def State.groupGood (s : State) (e : Fin 8) (k : GroupKey) (data : List Byte) : State :=
  let s := (s.modEntry e (fun x => { x with state := .valid, data := data })).cacheTouch e
  let s := if s.sealChecks k then s.sealGroupChecked else s
  (s.endAll State.becomeReady (s.claimants k)).serveWaitGroup

/-- The pages of group g of an image of this PAGE COUNT (R74). -/
def groupPages (pageCount g : Nat) : List Nat := List.range' (64 * g) (min 64 (pageCount - 64 * g))

/-- The buffer slots that hold pages of a group are discarded; a discard of a held slot is reported to the lifecycle
unit (R74, R87, R151). -/
def State.discardGroup (s : State) (t : Tag) (g : Nat) : State :=
  allSlots.foldl
    (fun s n =>
      match (s.bufferSlot n).key with
      | some (u, i) =>
        if u = t ∧ i / 64 = g ∧ (s.bufferSlot n).state = .valid then
          (match (s.bufferSlot n).heldFor with
           | some p => (s.discardSlot n).bootPageBad p
           | none => s.discardSlot n)
        else s
      | none => s)
    s

/-- A group fill ends without a match (R71, R74, R75, R78): in one act the entry becomes FREE, releasing all its claims, and
every claimant ends in the way `f`; a claiming seal group check fails with `reason`. The WAIT_GROUP list is served, and
the origin-waits that have ended are handled last, so that a need for a page of the group starts a new group fill
(R75, R93). -/
def State.groupEnds (s : State) (e : Fin 8) (k : GroupKey) (f : State → FillRecord → State) (reason : Reason) : State :=
  let checks := s.sealChecks k
  let ended := s.claimants k
  let s := (State.endAll (s.freeEntry e) f ended).serveWaitGroup
  let s := if checks then s.sealGroupFails k.2 reason else s
  ended.foldl (fun s r => s.originRetry r.origin) s

/-- A group of an image window fails its re-read (R74). -/
def State.groupBad (s : State) (e : Fin 8) (t : Tag) (g : Nat) : State :=
  let s := s.reportBad t (groupPages (s.image t).pageCount g)
  (s.discardGroup t g).groupEnds e (.image t, g) State.leaveBad .groupMismatch

/-- A group of a staged slot fails its re-read (R78). -/
def State.stagedGroupBad (s : State) (e : Fin 8) (k : GroupKey) : State :=
  s.groupEnds e k State.leaveBad .groupMismatch

/-- A group fill ends FAULT (R75). -/
def State.groupFault (s : State) (e : Fin 8) (k : GroupKey) : State := s.groupEnds e k State.leaveFault .flashFault

/-- The compare of a group READ that completed with these bytes (R73). -/
def State.groupCompared (s : State) (e : Fin 8) (addr : Nat) (data : List Byte) : State :=
  match (s.entry e).state, (s.entry e).key with
  | .dropped, _ => (s.freeEntry e).serveWaitGroup
  | .filling, some k =>
    if s.heldDigest k = some (Config.digest data) then s.groupGood e k data
    else if (s.entry e).reRead then
      (match k.1 with
       | .image t => s.groupBad e t k.2
       | .staging _ => s.stagedGroupBad e k)
    else
      ((s.modEntry e (fun x => { x with reRead := true })).raiseClock).requestGroup e addr
  | _, _ => s

/-- A group READ ends FAULT (R72, R75). -/
def State.groupFaulted (s : State) (e : Fin 8) : State :=
  match (s.entry e).state, (s.entry e).key with
  | .dropped, _ => (s.freeEntry e).serveWaitGroup
  | .filling, some k => s.groupFault e k
  | _, _ => s

/-- The page digest a record is compared with: entry j = i mod 64 of the claimed VALID entry's DATA (R76). -/
def State.pageDigest (s : State) (r : FillRecord) : Option Digest :=
  (s.entryOf (r.win, r.page / 64)).map (fun e => digestAt (s.entry e).data (r.page % 64 * 32))

/-- A first mismatch of a page (R77): the flag is set, the destination, claim and waiters are kept, the clock step is
raised, and the page READ is requested again from byte 0. -/
def State.reReadPage (s : State) (r : FillRecord) : State :=
  let s := (s.modRecord r.win r.page (fun r => { r with reRead := true })).raiseClock
  s.becomeReady r

/-- The compare of a page READ that completed with these 4096 bytes (R76 to R79). -/
def State.pageCompared (s : State) (r : FillRecord) (data : List Byte) : State :=
  let s := s.dropLane
  if s.pageDigest r = some (Config.digest data) then s.endGood r data
  else if r.reRead then
    (match r.win with
     | .image t => (s.reportBad t [r.page]).endAll State.endBad [r]
     | .staging _ => s.endBad r)
  else s.reReadPage r

end Sys2Proof.Machine
end

