-- ==== Sys2Proof/Machine/Manifest.lean ====
section
/-! DEFINITION. The manifest unit and the key engine (chapter 2): the walk, the candidate checks, key jobs, verdicts,
and the manifest part of a seal. -/

namespace Sys2Proof.Machine

/-! ## What the checks read from the one-time store (R20, R26, R193, R195) -/

/-- A tag's floor: its highest-numbered written floor row, or 0 (R190, R195). -/
def State.floorOf (s : State) (t : Tag) : Nat := (s.ots.floors[t]).getLast?.getD 0

/-- Root key slot r is LIVE: its key row WRITTEN and its retire row BLANK (R193). -/
def State.rootLive (s : State) (r : Fin 4) : Bool := (s.ots.rootKeys[r]).isSome && !s.ots.retired[r]

/-- Set the filter bit of a serial (R19). -/
def setFilterBit (f : BitVec 64) (serial : Serial) : BitVec 64 := f ||| (1#64 <<< filterIndex serial)

/-- The filter the written revocation rows give (R19). -/
def filterOf (l : List Serial) : BitVec 64 := l.foldl setFilterBit 0

/-- The revocation check: the filter bit, and where it is set a search of the written rows (R20). -/
def State.isRevoked (s : State) (serial : Serial) : Bool :=
  s.mu.filter.getLsbD (filterIndex serial) && s.ots.revoked.contains serial

/-! ## Windows and slots -/

/-- The number of entries above the last allocated range (R27). -/
def State.unallocated (s : State) : Nat := 24576 - s.wu.mapUsed

/-- A slot's reason in a window (R41). -/
def ImageWindow.reason (w : ImageWindow) : SlotId → Reason
  | .a => w.reasonA
  | .b => w.reasonB

/-- Write a slot's reason into a window (R32). -/
def ImageWindow.setReason (w : ImageWindow) (r : Reason) : SlotId → ImageWindow
  | .a => { w with reasonA := r }
  | .b => { w with reasonB := r }

/-- The directory view's record of a tag; without a view no slot is valid (R5). -/
def State.directory (s : State) (t : Tag) : DirectoryRecord :=
  match s.mu.view with
  | some v => v[t]
  | none => .absent .noSlot

/-- The directory view gives a slot the mark VALID (R5). -/
def State.slotValid (s : State) (t : Tag) (x : SlotId) : Bool :=
  s.mu.view.isSome && (s.directory t).reason x == .none

/-- The flash address of a slot's base (R6). -/
def State.slotAddr (s : State) (t : Tag) (x : SlotId) : Nat := (s.directory t).base x * 65536

/-- The configured LOAD BASE of a tag. -/
def State.configLoadBase (s : State) (t : Tag) : Nat := (s.cfg.map (fun c => (c.tags[t]).loadBase)).getD 0

/-! ## Candidate checks (R25 to R27) -/

/-- The map space check fails (R27). -/
def State.mapFull (s : State) (t : Tag) (k : EntryKind) (pageCount : Nat) : Bool :=
  match k, (s.image t).range with
  | .recheck, some r => r.length < pageCount && s.unallocated < pageCount
  | _, _ => s.unallocated < pageCount

/-- Checks 1 to 8 of a candidate, in their order (R25); NONE when all pass. `walk` is the walker's entry kind, none for
a seal candidate, which is not checked for map space. -/
def State.candidateCheck (s : State) (m : Manifest) (t : Tag) (x : SlotId) (walk : Option EntryKind) : Reason :=
  let structural := m.structural (s.directory t).slotSize
  if structural ≠ .none then structural
  else if m.tag ≠ t.val then .tagMismatch
  else if m.slotMark ≠ x.mark then .slotMismatch
  else if m.loadBase ≠ s.configLoadBase t then .loadMismatch
  else if m.version < s.floorOf t then .belowFloor
  else if !(if h : m.rootIndex < 4 then s.rootLive ⟨m.rootIndex, h⟩ else false) then .rootUnusable
  else if s.isRevoked m.serial then .certRevoked
  else if (match walk with
           | some k => s.mapFull t k m.pageCount
           | none => false) then .mapFull
  else .none

/-! ## The key engine (R28 to R30) -/

/-- The key job of the manifest in the buffer, with its two digests (R10, R11, R28). -/
def keyJobOf (b : List Byte) (source : JobSource) : KeyJob :=
  let m := manifestOfBytes b
  let g := groupsOf m.pageCount
  { source := source
    rootIndex := Fin.ofNat 4 m.rootIndex
    certDigest := Config.digest (certBytes b)
    certSignature := slice b 584 512
    subordinateKey := slice b 72 512
    manifestDigest := Config.digest (signedBytes b m.pageCount)
    signature := slice b (1096 + 32 * g) 512
    dropped := false }

/-- When the engine is free, the oldest queued job becomes the current job and starts its certificate SIGCHECK (R29). -/
def State.startJob (s : State) : State :=
  match s.ke.current, s.ke.queue with
  | none, j :: rest => { s with ke := { current := some (j, .certificate), queue := rest } }
  | _, _ => s

/-- A key job is submitted (R28, R29). -/
def State.submitJob (s : State) (j : KeyJob) : State :=
  State.startJob { s with ke := { s.ke with queue := s.ke.queue ++ [j] } }

/-- A dropped seal job is still in the engine (R30). -/
def State.droppedJobRuns (s : State) : Bool :=
  match s.ke.current with
  | some (j, _) => j.dropped
  | none => false

/-- The certificate SIGCHECK of a job (R10, R29). -/
def State.certPasses (s : State) (j : KeyJob) : Bool :=
  Config.sigCheck ((s.ots.rootKeys[j.rootIndex]).getD []) j.certDigest j.certSignature

/-- The manifest SIGCHECK of a job (R11, R29). -/
def KeyJob.manifestPasses (j : KeyJob) : Bool := Config.sigCheck j.subordinateKey j.manifestDigest j.signature

/-! ## Reads at class WALKER -/

/-- A READ of the manifest unit, at class WALKER (R110). -/
def State.requestWalker (s : State) (p : Purpose) (addr len : Nat) : State :=
  s.request { purpose := p, addr := addr, len := len, cls := .walker, live := true }

/-- The walker state changes. -/
def State.modWalker (s : State) (f : Walker → Walker) : State := { s with mu := { s.mu with walker := f s.mu.walker } }

/-- The manifest buffer's holder changes. -/
def State.setHolder (s : State) (h : Holder) : State := { s with mu := { s.mu with holder := h } }

/-! ## The buffer for the seal check (R18, R38) -/

/-- The seal check record takes the buffer if it waits for it, the buffer is free and the walker does not wait (R18): it
reads the staged slot's manifest (R38). -/
def State.grantBuffer (s : State) : State :=
  match s.mu.holder, s.mu.sealCheck with
  | .none, some c =>
    if c.phase = .waitBuffer ∧ s.mu.walker.phase ≠ .waitBuffer then
      State.requestWalker
        { s with mu := { s.mu with holder := .sealCheck, sealCheck := some { c with phase := .read } } }
        .sealManifest (s.staging c.win).base 8192
    else s
  | _, _ => s

/-- The seal check record of a window that has just been taken from the seal request list (R38). -/
def SealCheck.forWindow (w : StagingId) : SealCheck :=
  { win := w, phase := .waitBuffer, reRead := false, pageCount := 0, pageAreaOffset := 0, cancelled := false,
    waitingJob := none }

/-- The seal check record takes the head of the seal request list when it is none (R38). -/
def State.takeSealRequest (s : State) : State :=
  match s.mu.sealCheck, s.mu.sealRequests with
  | none, w :: rest =>
    State.grantBuffer
      { s with mu := { s.mu with sealRequests := rest, sealCheck := some (SealCheck.forWindow w) } }
  | _, _ => s

/-! ## The walk (R21 to R24, R37) -/

/-- The tag queue of the first walk (R21). -/
def State.walkOrder (s : State) : List Tag :=
  match s.cfg with
  | none => []
  | some c =>
    let bound := allTags.filter (fun t => (c.tags[t]).bound.isSome)
    let first (t : Tag) : Bool := allTags.any (fun u =>
      (c.tags[u]).bound == (c.tags[t]).bound && (c.tags[u]).boot && (c.tags[u]).checkBeforeRelease)
    bound.filter first ++ bound.filter (fun t => !first t && (c.tags[t]).printRequired)
      ++ bound.filter (fun t => !first t && !(c.tags[t]).printRequired)

/-- The slot a recheck may use: the one that is not FORMER SLOT (R43). -/
def State.recheckSlot (s : State) (t : Tag) : SlotId := ((s.image t).former.map SlotId.other).getD .a

/-- A tag-queue entry has a candidate to try, and so wants the buffer (R22, R37). -/
def State.wantsBuffer (s : State) (t : Tag) : EntryKind → Bool
  | .first => s.slotValid t .a || s.slotValid t .b
  | .recheck => (s.image t).reason (s.recheckSlot t) == .none

/-- The walker reads the current candidate's manifest (R24). -/
def State.readCandidate (s : State) (t : Tag) (x : SlotId) : State :=
  (s.modWalker (fun w => { w with phase := .read })).requestWalker .walkerManifest (s.slotAddr t x) 8192

/-- The walker takes the buffer for a tag and forms its candidate list, probing two valid slots (R18, R22, R23, R37). -/
def State.beginTag (s : State) (t : Tag) (k : EntryKind) : State :=
  let s := (s.setHolder .walker).modWalker (fun w => { w with candidates := [], probeA := none, reRead := false })
  match k with
  | .recheck => (s.modWalker (fun w => { w with candidates := [s.recheckSlot t] })).readCandidate t (s.recheckSlot t)
  | .first =>
    if s.slotValid t .a && s.slotValid t .b then
      (s.modWalker (fun w => { w with phase := .probe })).requestWalker (.probe .a) (s.slotAddr t .a) 2048
    else
      let x : SlotId := if s.slotValid t .a then .a else .b
      (s.modWalker (fun w => { w with candidates := [x] })).readCandidate t x

/-- The manifest buffer is released: a waiting walker takes it before a waiting seal check (R18). -/
def State.releaseBuffer (s : State) : State :=
  let s := s.setHolder .none
  match s.mu.walker.phase, s.mu.walker.entry with
  | .waitBuffer, some (t, k) => s.beginTag t k
  | _, _ => s.grantBuffer

/-! ## Verdicts (R33 to R36) -/

/-- The walker returns to IDLE, giving up the buffer (R33, R35, R36). -/
def State.walkerIdle (s : State) : State :=
  let s := if s.mu.holder = .walker then s.setHolder .none else s
  s.modWalker (fun _ => Walker.reset)

/-- A verdict is handed on (R36, R54): VERDICT is posted, READs stalled on the window are resolved, and the permit unit
and the lifecycle unit act. R36 gives the two units no order: the permit unit takes its report first (DESIGN CHOICE, log
entry 11). -/
def State.handOn (s : State) (t : Tag) (bootSet : Option Nat) : State :=
  let s := match (s.image t).owner with
    | some p => s.postBoth p .verdict
    | none => s
  (((s.resolveStalled t).evalPermit).lifeVerdict t bootSet)

/-- The verdict REJECTED (R35). After a recheck the old range stays allocated and the window uses none; R35 does not say what
MAP RANGE then holds, and the model leaves it at the old range (DESIGN CHOICE, log entry 31). -/
def State.rejectTag (s : State) (t : Tag) : State :=
  let s := s.modImage t (fun w =>
    { w with state := .rejected, slot := none, version := 0, serial := 0, pageCount := 0, good := 0, bad := 0, cursor := 0,
             loadBase := s.configLoadBase t })
  (s.walkerIdle).handOn t none

/-- A new range from the lowest unallocated entry (R34). -/
def State.newRange (s : State) (t : Tag) (pageCount : Nat) : State :=
  let r : MapRange := { start := s.wu.mapUsed, length := pageCount }
  let s := (s.clearRange r).modImage t (fun w => { w with range := some r })
  { s with wu := { s.wu with mapUsed := s.wu.mapUsed + pageCount } }

/-- The page state map range of an accepted window: a recheck reuses the old range where the image fits it (R34). -/
def State.allocate (s : State) (t : Tag) (k : EntryKind) (pageCount : Nat) : State :=
  match k, (s.image t).range with
  | .recheck, some r => if pageCount ≤ r.length then s else s.newRange t pageCount
  | _, _ => s.newRange t pageCount

/-- The verdict ACCEPTED: the window is written from the manifest buffer (R33, R34, R45). -/
def State.acceptTag (s : State) (t : Tag) (k : EntryKind) (x : SlotId) : State :=
  let m := manifestOfBytes s.mu.buffer
  let addr := s.slotAddr t x
  let digests := digestsAt s.mu.buffer 1096 (groupsOf m.pageCount)
  let s := s.allocate t k m.pageCount
  let s := s.modImage t (fun w =>
    ImageWindow.setReason
      { w with state := .accepted, slot := some x, version := m.version, serial := m.serial, loadBase := m.loadBase,
               pageCount := m.pageCount, pageBase := addr + m.pageAreaOffset * 4096, groupBase := addr + 8192,
               good := 0, bad := 0, cursor := 0, touched := false, digests := digests } .none x)
  (s.walkerIdle).handOn t (some m.bootSet)

/-- The IDLE walker takes entries of the tag queue until one keeps it busy or the queue is empty; an entry without a
candidate is rejected at once (R22, R37). Between tags a waiting seal check may take the buffer (R18). R33 and R35 release the
buffer before the verdict is handed on, and R18 does not say which of the two a waiting seal check sees first: it takes the
buffer, and requests its READ, after the hand-on and its requests (DESIGN CHOICE, log entry 11). -/
def State.walkRounds : Nat → State → State
  | 0, s => s
  | n + 1, s =>
    if s.mu.walker.phase = .idle then
      match s.mu.tagQueue with
      | [] => s.grantBuffer
      | (t, k) :: rest =>
        let s := { s with mu := { s.mu with tagQueue := rest } }.modWalker (fun w => { w with entry := some (t, k) })
        if s.wantsBuffer t k then
          (if s.mu.holder = .none then s.beginTag t k else s.modWalker (fun w => { w with phase := .waitBuffer }))
        else State.walkRounds n (s.rejectTag t).grantBuffer
    else s

/-- The walker goes on with the tag queue (R22). -/
def State.walk (s : State) : State := State.walkRounds (s.mu.tagQueue.length + 1) s

/-- The walker's candidate ends with a reason, which is written at once; the next candidate is read, or the verdict is
REJECTED (R32). -/
def State.candidateFails (s : State) (r : Reason) : State :=
  match s.mu.walker.entry, s.mu.walker.candidates with
  | some (t, _), x :: rest =>
    let s := s.modImage t (fun w => w.setReason r x)
    let s := s.modWalker (fun w => { w with candidates := rest, reRead := false })
    (match rest with
     | y :: _ => s.readCandidate t y
     | [] => (s.rejectTag t).walk)
  | _, _ => s

/-- The bytes of a READ replace the first bytes of the manifest buffer (R7, R23). -/
def State.fillBuffer (s : State) (bytes : List Byte) : State :=
  { s with mu := { s.mu with buffer := bytes ++ s.mu.buffer.drop bytes.length } }

/-- The walker's manifest READ has completed: checks 1 to 8, then the key job (R24, R25, R28). -/
def State.walkerManifestRead (s : State) : State :=
  match s.mu.walker.entry, s.mu.walker.candidates with
  | some (t, k), x :: _ =>
    let r := s.candidateCheck (manifestOfBytes s.mu.buffer) t x (some k)
    if r = .none then
      (s.modWalker (fun w => { w with phase := .sign })).submitJob (keyJobOf s.mu.buffer .walker)
    else s.candidateFails r
  | _, _ => s

/-- The order of two probed slots: highest probe VERSION first, slot A on equal ones; a slot whose probe faulted is no
candidate (R23). -/
def probeOrder : Option Nat → Option Nat → List SlotId
  | some a, some b => if b ≤ a then [.a, .b] else [.b, .a]
  | some _, none => [.a]
  | none, some _ => [.b]
  | none, none => []

/-- A probe has ended with a VERSION, or in FAULT (R23). -/
def State.probeEnded (s : State) (x : SlotId) (version : Option Nat) : State :=
  match s.mu.walker.entry with
  | none => s
  | some (t, _) =>
    let s := if version.isNone then s.modImage t (fun w => w.setReason .flashFault x) else s
    match x with
    | .a =>
      (s.modWalker (fun w => { w with probeA := version })).requestWalker (.probe .b) (s.slotAddr t .b) 2048
    | .b =>
      let order := probeOrder s.mu.walker.probeA version
      let s := s.modWalker (fun w => { w with candidates := order })
      (match order with
       | y :: _ => s.readCandidate t y
       | [] => (s.rejectTag t).walk)

/-- The directory view is complete: reasons are written into the windows, the tag queue is filled and the walk begins
(R5, R21, R22). -/
def State.directoryDone (s : State) (view : Vector DirectoryRecord 8) : State :=
  let s := allTags.foldl (fun s t => s.modImage t (fun w => { w with reasonA := (view[t]).reasonA, reasonB := (view[t]).reasonB })) s
  let s := { s with mu := { s.mu with view := some view, tagQueue := s.walkOrder.map (fun t => (t, .first)) } }
  (s.modWalker (fun w => { w with phase := .idle })).walk

/-! ## The manifest part of a seal (R38 to R40) -/

/-- The seal check record returns to none, and the next seal request is taken (R39). -/
def State.clearSealCheck (s : State) : State := State.takeSealRequest { s with mu := { s.mu with sealCheck := none } }

/-- A seal check ends with a reason: the window unit takes the result (R39, R186), and the window's cache entries are
dropped (R72). -/
def State.sealRejected (s : State) (w : StagingId) (r : Reason) : State :=
  ((((s.modStaging w (fun x => { x with checked := 0 })).takeSealResult w .sealFailed r none).dropEntries
    (.staging w)).clearSealCheck)

/-- The seal check record's manifest READ has completed (R38): checks 1 to 7; on a pass the group list and the page
fields are kept, the record enters SIGN, the buffer is released and the key job submitted (R28), behind a dropped job
if one still runs (R30). -/
def State.sealManifestRead (s : State) (c : SealCheck) : State :=
  let w := s.staging c.win
  let m := manifestOfBytes s.mu.buffer
  let r := s.candidateCheck m w.tag (w.slot.getD .a) none
  if r = .none then
    let job := keyJobOf s.mu.buffer (.sealCheck c.win)
    let digests := digestsAt s.mu.buffer 1096 (groupsOf m.pageCount)
    let s := s.modStaging c.win (fun x => { x with digests := digests })
    let wait := s.droppedJobRuns
    let c' : SealCheck := { c with phase := .sign, pageCount := m.pageCount, pageAreaOffset := m.pageAreaOffset,
                                   waitingJob := if wait then some job else none }
    let s := { s with mu := { s.mu with sealCheck := some c' } }
    let s := if wait then s else s.submitJob job
    s.releaseBuffer
  else (s.sealRejected c.win r).releaseBuffer

/-! ## The end of a key job (R29 to R32, R39) -/

/-- The walker's key job has ended (R31, R32, R33). -/
def State.walkerJobEnds (s : State) (failure : Option Reason) : State :=
  match s.mu.walker.entry, s.mu.walker.candidates with
  | some (t, k), x :: _ =>
    (match failure with
     | none => (s.acceptTag t k x).walk
     | some r =>
       if s.mu.walker.reRead then s.candidateFails r
       else ((s.modWalker (fun w => { w with reRead := true })).raiseClock).readCandidate t x)
  | _, _ => s

/-- The seal check record's key job has ended (R31, R39). -/
def State.sealJobEnds (s : State) (c : SealCheck) (failure : Option Reason) : State :=
  match failure with
  | none =>
    (s.queueSeal { win := c.win, pageCount := c.pageCount, pageAreaOffset := c.pageAreaOffset }).clearSealCheck
  | some r =>
    if c.reRead then s.sealRejected c.win r
    else
      State.grantBuffer (State.raiseClock
        { s with mu := { s.mu with sealCheck := some { c with reRead := true, phase := .waitBuffer } } })

/-- A dropped job has left the engine: a cancelled record returns to none, and a job that waited for it is submitted
(R30, R40). -/
def State.droppedJobLeaves (s : State) : State :=
  match s.mu.sealCheck with
  | none => s
  | some c =>
    if c.cancelled then s.clearSealCheck
    else
      match c.waitingJob with
      | some j => State.submitJob { s with mu := { s.mu with sealCheck := some { c with waitingJob := none } } } j
      | none => s

/-- The current job ends: its result goes to its source, and the engine takes the next job (R29, R30). -/
def State.jobEnds (s : State) (j : KeyJob) (failure : Option Reason) : State :=
  let s := State.startJob { s with ke := { s.ke with current := none } }
  if j.dropped then s.droppedJobLeaves
  else
    match j.source, s.mu.sealCheck with
    | .walker, _ => s.walkerJobEnds failure
    | .sealCheck _, some c => s.sealJobEnds c failure
    | .sealCheck _, none => s

/-! ## Cancelling a seal (R30, R40, R175, R187) -/

/-- The current key job is dropped, if it is the seal's (R30). -/
def State.dropCurrentJob (s : State) (w : StagingId) : State :=
  { s with ke := { s.ke with current := s.ke.current.map (fun (j, ph) =>
      (if j.source = .sealCheck w then { j with dropped := true } else j, ph)) } }

/-- The seal's key job waits in the queue (R30). -/
def State.sealJobQueued (s : State) (w : StagingId) : Bool :=
  s.ke.queue.any (fun j => j.source == .sealCheck w && !j.dropped)

/-- The manifest unit stops a seal check (R40): a request is removed; a waiting record returns to none; a READ runs on
with its data discarded and the buffer held until it ends; a key job is dropped. -/
def State.stopSealCheck (s : State) (w : StagingId) : State :=
  let s := { s with mu := { s.mu with sealRequests := s.mu.sealRequests.filter (fun x => x != w) } }
  match s.mu.sealCheck with
  | none => s
  | some c =>
    if c.win = w ∧ c.cancelled = false then
      match c.phase with
      | .waitBuffer => s.clearSealCheck
      | .read =>
        let s := { s with fc := { s.fc with queues := s.fc.queues.change (fun r =>
          if r.purpose = Purpose.sealManifest then { r with live := false } else r) } }
        (s.loseRunning Purpose.sealManifest).clearSealCheck
      | .sign =>
        if c.waitingJob.isSome then s.clearSealCheck
        else if s.sealJobQueued w then
          State.clearSealCheck { s with ke := { s.ke with queue := s.ke.queue.filter (fun j => j.source != .sealCheck w) } }
        else State.dropCurrentJob { s with mu := { s.mu with sealCheck := some { c with cancelled := true } } } w
    else s

/-- A staging window leaves SEALING by STAGE-CLOSE or a fallback: its seal is cancelled wherever it stands (R187). -/
def State.cancelSeal (s : State) (w : StagingId) : State :=
  let handed := s.sw.sealQueue.any (fun h => h.win == w)
  let s := s.stopSealCheck w
  let s := if handed then s.stopSeal w else s
  s.dropEntries (.staging w)

end Sys2Proof.Machine
end

