-- ==== Sys2Proof/Machine/Records.lean ====
section
/-! DEFINITION. The records the part composes (1.6): the value codes of Table 1-1, the STATUS, notice, violation and
REPORT records, and the command response (R14, R15, R137, R138). -/

namespace Sys2Proof.Machine

/-! ## Value codes (Table 1-1) -/

/-- Codes of an image window state. -/
def WindowState.code : WindowState → Nat
  | .unused => 0
  | .checking => 1
  | .accepted => 2
  | .rejected => 3
  | .failed => 4

/-- Codes of a staging window state. -/
def StagingState.code : StagingState → Nat
  | .free => 0
  | .opened => 1
  | .sealing => 2
  | .sealed => 3
  | .sealFailed => 4
  | .discarded => 5

/-- Codes of a selected slot: none 0, A 1, B 2. -/
def slotCode : Option SlotId → Nat
  | none => 0
  | some .a => 1
  | some .b => 2

/-- Codes of a port state. -/
def PortState.code : PortState → Nat
  | .unused => 0
  | .held => 1
  | .prefetch => 2
  | .running => 3
  | .confirmed => 4
  | .faulted => 5

/-- Codes of a role; 0xFF no role. -/
def roleCode : Option Role → Nat
  | some .formatter => 0
  | some .engine => 1
  | some .panel => 2
  | some .scanfax => 3
  | none => 0xFF

/-- Codes of a reason. -/
def Reason.code : Reason → Nat
  | .none => 0
  | .noDirectory => 1
  | .noSlot => 2
  | .layout => 3
  | .format => 4
  | .tagMismatch => 5
  | .slotMismatch => 6
  | .loadMismatch => 7
  | .belowFloor => 8
  | .rootUnusable => 9
  | .certRevoked => 10
  | .mapFull => 11
  | .certSignature => 12
  | .manifestSignature => 13
  | .flashFault => 14
  | .groupMismatch => 15
  | .pageMismatch => 16
  | .discarded => 17

/-- Codes of a violation kind; none 0. -/
def violationCode : Option ViolationKind → Nat
  | none => 0
  | some .outside => 1
  | some .withheld => 2
  | some .command => 3
  | some .writeOutside => 4

/-- Codes of an op class. -/
def OpClass.code : OpClass → Nat
  | .demand => 0
  | .prefetch => 1
  | .walker => 2
  | .staging => 3
  | .sweep => 4

/-- Codes of a timeout op kind; none 0. -/
def timeoutCode : Option TimeoutKind → Nat
  | none => 0
  | some .read => 1
  | some .program => 2
  | some .erase => 3
  | some .suspend => 4

/-- Codes of a requesting block; none 0. -/
def requesterCode : Option Requester → Nat
  | none => 0
  | some .pageBuffer => 1
  | some .integrity => 2
  | some .manifest => 3
  | some .window => 4

/-- Codes of a sweep stream state. -/
def StreamState.code : StreamState → Nat
  | .idle => 0
  | .active => 1
  | .parked => 2

/-- Codes of a restart cause. -/
def Cause.code : Cause → Nat
  | .powerOn => 0
  | .command => 1
  | .deadline => 2

/-- Status values of a READ (R13); a larger value is a worse result. -/
def ReadResult.code : ReadResult → Nat
  | .ok => 0
  | .raw => 1
  | .withheld => 2
  | .outside => 3
  | .fault => 4

/-- The worse of two results (R57). -/
def ReadResult.worse (a b : ReadResult) : ReadResult := if a.code ≤ b.code then b else a

/-- Refusal codes (R14). -/
def RefusalCode.code : RefusalCode → Nat
  | .fault => 0
  | .frame => 1
  | .notPermitted => 2
  | .state => 3
  | .range => 4
  | .full => 5
  | .guard => 6
  | .exhausted => 7
  | .busy => 8

/-! ## Records -/

/-- One byte of a record. -/
def byteOf (n : Nat) : Byte := BitVec.ofNat 8 n

/-- A flag as a number. -/
def bitOf (b : Bool) : Nat := if b then 1 else 0

/-- The command response: DONE with result fields (R14). -/
def doneResponse (fields : List Byte) : List Byte := byteOf 0 :: byteOf 0 :: (leBytes 2 fields.length ++ fields)

/-- The command response: REFUSED with a code and RESULT LENGTH 0 (R14). -/
def refusedResponse (c : RefusalCode) : List Byte := byteOf 1 :: byteOf c.code :: leBytes 2 0

/-- A port number, 0xFF for none. -/
def portCode : Option PortId → Nat
  | some p => p.val
  | none => 0xFF

/-- A verdict of the STATUS record (Table 1-3). VERSION is 0 while no slot is selected. -/
def verdictEntry (s : State) (t : Tag) : List Byte :=
  let w := s.image t
  [byteOf t.val, byteOf w.state.code, byteOf (slotCode w.slot), byteOf w.reasonA.code, byteOf w.reasonB.code, 0]
    ++ leBytes 2 (if w.slot.isSome then w.version else 0)

/-- The tags bound to a port, in ascending tag (R137). -/
def State.boundTags (s : State) (p : PortId) : List Tag := allTags.filter (fun t => (s.image t).owner == some p)

/-- The STATUS record of a port (Table 1-3, R137). Bits 1 to 7 of VIOLATION FLAGS, to which the table gives no value, are
sent 0 (DESIGN CHOICE, log entry 24). -/
def statusRecord (s : State) (p : PortId) : List Byte :=
  let u := s.port p
  [byteOf 4, byteOf 0, byteOf p.val, byteOf (roleCode (s.role p)), byteOf (s.life p).state.code, byteOf u.e.toNat,
   byteOf (bitOf s.pu.printEn), u.events, byteOf (violationCode u.violation.kind), byteOf u.violation.further,
   byteOf (bitOf u.violation.overflow), 0, byteOf (s.boundTags p).length]
    ++ (s.boundTags p).flatMap (verdictEntry s)

/-- The notice record of a port (Table 1-4). -/
def noticeRecord (u : PortUnit) : List Byte := [u.events, u.mask]

/-- The violation record of a port (Table 1-5). An empty one has FLAGS 0 (R140); in another, bits 1 to 7 of FLAGS, to which the
table gives no value, are sent 0 (DESIGN CHOICE, log entry 24). -/
def violationRecord (v : Violation) : List Byte :=
  [byteOf (violationCode v.kind), byteOf (bitOf v.overflow), byteOf v.further, 0] ++ leBytes 4 v.detail

/-- An image window in the REPORT record (Table 1-7). With no selected slot the accepted manifest's fields read 0. Byte 7,
which the table neither names nor gives a value, is sent 0, and so are bits 2 to 7 of FLAGS (DESIGN CHOICE, log entry 24). -/
def imageEntry (s : State) (t : Tag) : List Byte :=
  let w := s.image t
  let sel (n : Nat) : Nat := if w.slot.isSome then n else 0
  [byteOf w.state.code, byteOf (slotCode w.slot), byteOf w.reasonA.code, byteOf w.reasonB.code, byteOf (portCode w.owner),
   byteOf (bitOf w.boot), byteOf (bitOf w.touched + 2 * bitOf s.lc.fallbackUsed[t]), 0]
    ++ leBytes 2 (sel w.version) ++ leBytes 2 (sel w.pageCount) ++ leBytes 2 w.loadBase ++ leBytes 2 (sel w.good)
    ++ leBytes 2 (sel w.bad) ++ leBytes 2 (sel w.cursor) ++ leBytes 4 (sel w.serial.toNat)

/-- A staging window in the REPORT record (Table 1-7). Bytes 5 to 7 and 14 to 15, which the table does not name, read 0 for a
FREE window, and so does FLAGS; for another the table gives these bytes and bits 2 to 7 of FLAGS no value, and they are sent 0
(DESIGN CHOICE, log entry 24). -/
def stagingEntry (w : StagingWindow) : List Byte :=
  [byteOf w.state.code, byteOf w.tag.val, byteOf (slotCode w.slot), byteOf (bitOf w.written + 2 * bitOf w.warned),
   byteOf w.reason.code, 0, 0, 0]
    ++ leBytes 2 w.sizePages ++ leBytes 2 (w.firstBad.getD 0xFFFF) ++ leBytes 2 w.checked ++ [0, 0]

/-- The REPORT record (Table 1-7, R138, R108). -/
def reportRecord (s : State) : List Byte :=
  let t := s.fc.timeout
  [byteOf 4, byteOf 0, byteOf s.lc.cause.code, byteOf (portCode s.lc.causePort), byteOf s.fc.step,
   byteOf (bitOf s.pu.printEn), byteOf (bitOf s.pu.latch), byteOf s.ots.revoked.length,
   byteOf (s.recordCount .demand), byteOf (s.recordCount .prefetch), byteOf (s.recordCount .sweep),
   byteOf (s.slotCount .free), byteOf (s.slotCount .filling), byteOf (s.slotCount .valid),
   byteOf (timeoutCode t.kind), byteOf t.cls.code, byteOf (requesterCode t.requester), byteOf t.further]
    ++ leBytes 4 t.addr ++ [byteOf s.streamState.code, 0]
    ++ allTags.flatMap (fun t => leBytes 2 (s.floorOf t))
    ++ allTags.map (fun t => byteOf (s.ots.floors[t]).length)
    ++ allTags.flatMap (imageEntry s)
    ++ allStaging.flatMap (fun w => stagingEntry (s.staging w))

end Sys2Proof.Machine
end

