-- ==== Sys2Proof/Machine/Reset.lean ====
section
/-! DEFINITION. The two kinds of reset, the load of the one-time store and its row writes (R162, R163, R191), with the
meanings of POWER_ON_RESET and OTS_LOAD_COMPLETE. -/

namespace Sys2Proof.Machine

/-! ## Resets -/

/-- At a reset a PROGRAM in progress is abandoned, and its program page is left as the flash leaves it (R125, R120). -/
def State.abandonPort (s : State) : State :=
  match s.fc.port with
  | .op c =>
    (match c.req.purpose with
     | .program _ _ => s.disturb (c.req.addr / 256 * 256) 256
     | _ => s)
  | .reset (.failProgram r) => s.disturb (r.addr / 256 * 256) 256
  | _ => s

/-- At a reset an ERASE in progress is abandoned, and its sector is left as the flash leaves it (R125, R120). -/
def State.abandonErase (s : State) : State :=
  match s.fc.erase with
  | .erasing r => s.disturb r.addr 65536
  | .suspending r => s.disturb r.addr 65536
  | .suspended r => s.disturb r.addr 65536
  | .none => s

/-- At a reset the flash ops in progress are abandoned (R125). -/
def State.abandonOps (s : State) : State := s.abandonPort.abandonErase

/-- A port's life in the reset condition: PORT STATE reads as the initial value that the load of these rows will give it,
HELD for a port with a ROLE in a WRITTEN config row, else UNUSED (R148, R149). BOOT TAG has no value in the spec before
the config record is loaded (R148, R149 speaks of PORT STATE alone): the model has none until then (DESIGN CHOICE, log
entry 15). -/
def Ots.initialLife (o : Ots) (p : PortId) : PortLife :=
  { PortLife.reset with
    state := match o.config with
      | some bytes => if ((configOfBytes bytes).ports[p]).role.isSome then .held else .unused
      | none => .unused }

/-- Until the rows are loaded, PORT STATE follows the config row (R149). -/
def State.showInitialStates (s : State) : State :=
  { s with lc := { s.lc with ports := Vector.ofFn s.ots.initialLife } }

/-- Every block in its reset condition (R149, R163). The flash, the rows, the level of the select inputs and the queue of
waiting commands are not the blocks' to reset. The spec gives the image windows their values from the loaded config
record alone (R41); until the load the model has them UNUSED with owner none (DESIGN CHOICE, log entry 15). -/
def State.resetBlocks (s : State) : State :=
  let s := s.abandonOps
  State.showInitialStates
    { State.reset with
      flash := s.flash
      freeCount := s.freeCount
      ots := { s.ots with queue := [], running := none }
      ports := s.ports.map (fun u => { PortUnit.reset with selectActive := u.selectActive })
      pending := s.pending }

/-- A power-on reset (R163): a row write under way leaves its row BLANK (R191), the timeout record is empty, the cause is
POWER_ON. -/
def State.powerOn (s : State) : State := s.resetBlocks

/-- A part restart (R162, R163): a running row write completes with its response lost, queued ones are dropped; the
timeout record and the clock step are kept (R122, R123). -/
def State.partRestart (s : State) (cause : Cause) (port : Option PortId) : State :=
  let n := s.resetBlocks
  { n with
    ots := { n.ots with running := s.ots.running.map (fun w => { w with source := none }) }
    fc := { n.fc with step := s.fc.step, timeout := s.fc.timeout }
    lc := { n.lc with cause := cause, causePort := port } }

/-! ## The load of the one-time store (R191) -/

/-- An image window after the load (R41). -/
def loadedWindow (c : TagConfig) : ImageWindow :=
  { ImageWindow.unused with
    state := if c.bound.isSome then .checking else .unused
    owner := c.bound
    boot := c.boot
    printRequired := c.printRequired
    checkBeforeRelease := c.checkBeforeRelease
    loadBase := c.loadBase }

/-- The BOOT tag a config record gives a port (R148). -/
def ConfigRecord.bootTag (c : ConfigRecord) (p : PortId) : Option Tag :=
  allTags.find? (fun t => (c.tags[t]).bound == some p && (c.tags[t]).boot)

/-- A port's life after the load (R148). -/
def loadedLife (c : ConfigRecord) (p : PortId) : PortLife :=
  { PortLife.reset with
    state := if (c.ports[p]).role.isSome then .held else .unused
    bootTag := if (c.ports[p]).role.isSome then c.bootTag p else none }

/-- The clock step after the load (R123): D_MIN after a power-on reset, else kept and raised to D_MIN if below it. -/
def State.loadedStep (s : State) (dMin : Nat) : Nat := if s.lc.cause = .powerOn then dMin else max s.fc.step dMin

/-- The config record is handed to the window unit, the lifecycle unit, the flash controller and the port units, the
revocation filter is built, and the directory read is requested (R2, R19, R41, R123, R148, R191). -/
def State.loadConfig (s : State) (c : ConfigRecord) : State :=
  let s := { s with
    loaded := true
    cfg := some c
    fc := { s.fc with step := s.loadedStep c.dMin }
    wu := { s.wu with image := c.tags.map loadedWindow }
    lc := { s.lc with ports := #v[loadedLife c 0, loadedLife c 1, loadedLife c 2, loadedLife c 3] }
    mu := { s.mu with filter := filterOf s.ots.revoked } }
  ((s.modWalker (fun w => { w with phase := .directory })).requestWalker .directory 0 2048).evalPermit

/-- The load finds the config row BLANK: factory state (R196); port 0 is released, and a select already active on it
carries no frame (R127). -/
def State.enterFactory (s : State) : State :=
  let s := { s with
    loaded := true
    cfg := none
    fc := { s.fc with step := s.loadedStep 0 }
    mu := { s.mu with filter := filterOf s.ots.revoked } }
  (s.modPort 0 (fun u => { u with ignoring := u.selectActive })).evalPermit

/-- The one-time store has loaded its rows (R191); after a part restart, once the running row write has completed
(R162). -/
def State.otsLoaded (s : State) : State :=
  if s.loaded ∨ s.ots.running.isSome then s
  else
    match s.ots.config with
    | some bytes => s.loadConfig (configOfBytes bytes)
    | none => s.enterFactory

/-! ## Row writes (R191) -/

/-- The head of the row-write queue starts when no write is running (R191). -/
def State.startRow (s : State) : State :=
  match s.ots.running, s.ots.queue with
  | none, w :: rest => { s with ots := { s.ots with running := some w, queue := rest } }
  | _, _ => s

/-- Row writes join the tail of the row-write queue (R191). -/
def State.queueRows (s : State) (l : List RowWrite) : State :=
  State.startRow { s with ots := { s.ots with queue := s.ots.queue ++ l } }

/-- A row becomes WRITTEN with its content; a row that is WRITTEN stays as it is (R191: each row is written once). -/
def Ots.write (o : Ots) : RowContent → Ots
  | .config bytes => if o.config.isNone then { o with config := some bytes } else o
  | .rootKey r key => if (o.rootKeys[r]).isNone then { o with rootKeys := o.rootKeys.set r (some key) } else o
  | .retire r => { o with retired := o.retired.set r true }
  | .revocation serial => if o.revoked.length < 24 then { o with revoked := o.revoked ++ [serial] } else o
  | .floor t v => if (o.floors[t]).length < 24 then { o with floors := o.floors.set t (o.floors[t] ++ [v]) } else o

/-! ## Meanings -/

/-- POWER_ON_RESET (R163). -/
def execPowerOnReset (s : State) : Host.Outcome State Fault Refusal := .next s.powerOn

/-- OTS_LOAD_COMPLETE (R191). -/
def execOtsLoadComplete (s : State) : Host.Outcome State Fault Refusal := .next s.otsLoaded

end Sys2Proof.Machine
end

