-- ==== Sys2Proof/Machine/Ports.lean ====
section
/-! DEFINITION. The port units (7.1): responses, the bytes a controller clocks in, the release of select, and the end of
a command's work; with the meanings of RESPONSE_BYTE_CLOCKED_IN, SELECT_RELEASE and HOLDOFF_EXPIRY. -/

namespace Sys2Proof.Machine

/-! ## Responses (R14, R129) -/

/-- A command's response is ready: FRAME STATE becomes RESPONDING with its bytes (R129). -/
def State.respond (s : State) (p : PortId) (bytes : List Byte) : State :=
  s.modPort p (fun u => { u with frame := .responding, response := bytes, stream := none })

/-- A command is answered DONE with result fields (R14). -/
def State.done (s : State) (p : PortId) (fields : List Byte) : State := s.respond p (doneResponse fields)

/-- A command is answered REFUSED with a code (R14, R133). -/
def State.refuse (s : State) (p : PortId) (c : RefusalCode) : State := s.respond p (refusedResponse c)

/-- A command whose response comes at the end of an operation is EXECUTING until then (R129). -/
def State.execute (s : State) (p : PortId) (code : Byte) : State :=
  s.modPort p (fun u => { u with frame := .executing code })

/-- The work of a command of a port ends with this response (R129, R130): an EXECUTING frame is answered; a BACKGROUND
command's response is discarded and BACKGROUND returns to none. -/
def State.commandEnds (s : State) (p : PortId) (code : Byte) (bytes : List Byte) : State :=
  if (s.port p).frame = .executing code then s.respond p bytes
  else if (s.port p).background = some code then s.modPort p (fun u => { u with background := none })
  else s

/-! ## The bytes of a READ (R13, R57, R60, R83, R135) -/

/-- What the next data byte of a READ is, when it is ready: its value and its result (R13, R53, R58). A page byte lies at
its place in the page the pinned slot holds. -/
def State.nextByte (s : State) (st : ReadStream) : Option (Byte × ReadResult) :=
  match st.serve with
  | .answer r => some (0xFF, r)
  | .slot n => some ((s.bufferSlot n).data.getD ((st.start + st.passed) % 4096) 0xFF, .ok)
  | .raw (x :: _) _ => some (x, .raw)
  | .raw [] true => some (0xFF, .fault)
  | .raw [] false => none
  | .stallChecking _ => none
  | .stallFill _ _ => none
  | .stallOrigin _ _ => none

/-- The READ after one more byte of it has been passed with a result. -/
def ReadStream.afterByte (st : ReadStream) (r : ReadResult) : ReadStream :=
  { st with
    passed := st.passed + 1
    reportedOutside := st.reportedOutside || r == .outside
    reportedWithheld := st.reportedWithheld || r == .withheld
    serve := match st.serve with
      | .raw (_ :: rest) f => .raw rest f
      | other => other }

/-- The first OK byte of a window's page sets its TOUCHED (R45). -/
def State.touch (s : State) (st : ReadStream) : State :=
  match st.serve with
  | .slot n =>
    (match (s.bufferSlot n).key with
     | some (t, _) => s.modImage t (fun w => { w with touched := true })
     | none => s)
  | _ => s

/-- The stream has passed the last byte it was served so far: its pin is released, and at the next page it is
classified afresh (R50, R55, R83); a raise of a PREFETCH record serves the prefetch list (R97). -/
def State.reachPage (s : State) (p : PortId) : State :=
  match (s.port p).stream with
  | none => s
  | some st =>
    let s := match st.serve with
      | .slot n => s.unpinSlot n
      | _ => s
    if st.passed < st.length then ((s.classify p).serveList).evalPermit
    else s.setServe p (.answer .ok)

/-- One data byte of a READ is passed. -/
def State.passByte (s : State) (p : PortId) (st : ReadStream) (value : Byte) (r : ReadResult) : State :=
  let s := (s.touch st).modPort p (fun u => { u with out := value, worst := u.worst.worse r })
  let s := (s.reportByte p st r).setStream p (st.afterByte r)
  if st.passed + 1 = st.stopAt then s.reachPage p else s

/-- The status byte of a READ is passed and its response ends (R57, R135). -/
def State.passStatus (s : State) (p : PortId) : State :=
  s.modPort p (fun u => { u with out := byteOf u.worst.code, stream := none, response := [] })

/-- The next data byte of a READ is passed if it is ready; one that is not ready is held back by WAIT (R131; log
entry 12). -/
def State.passNext (s : State) (p : PortId) : State :=
  match (s.port p).stream with
  | some st =>
    (match s.nextByte st with
     | some (value, r) => s.passByte p st value r
     | none => s)
  | none => s

/-- A port that waits for the next byte of its running RAW READ gets it as the flash delivers it: the controller can clock it
in only once it has come (R53, R131). It carries the content of its flash location (R13). The last byte of the READ
comes with its completion (log entry 14). In the sector of a SUSPENDED erase that content is free (R115, log entry 19).
What a location at or above the flash's own capacity holds the spec leaves to the flash's addressing (R48): the model's
flash has no capacity, and such a byte is the map's cell of that address, 0xFF where nothing is listed (DESIGN CHOICE,
log entry 27). -/
def State.rawArrives (s : State) (p : PortId) : State :=
  match s.fc.port, s.serving p with
  | .op c, some (.raw [] false) =>
    if c.req.purpose = .raw p ∧ c.req.live then s.rawDelivers [Memory.read s.flash (c.req.addr + c.delivered)] else s
  | _, _ => s

/-- The controller of a port clocks in one byte (R127, R129, R131). Before a frame has been taken there is no response byte:
the event then has no effect (log entry 12). -/
def State.clockByte (s : State) (p : PortId) : State :=
  let s := s.modPort p (fun u => { u with selectActive := true })
  if !s.answers p then s.modPort p (fun u => { u with out := 0xFF })
  else if (s.port p).frame = .responding then
    match (s.port p).stream with
    | some st => if st.passed < st.length then (s.rawArrives p).passNext p else s.passStatus p
    | none =>
      (match (s.port p).response with
       | b :: rest => s.modPort p (fun u => { u with out := b, response := rest })
       | [] => s.modPort p (fun u => { u with out := 0xFF }))
  else s

/-! ## Meanings -/

/-- RESPONSE_BYTE_CLOCKED_IN (R129). -/
def execResponseByteClockedIn (p : PortId) (s : State) : Host.Outcome State Fault Refusal := .next (s.clockByte p)

/-- Select becomes inactive on a port (R57, R128, R130): a frame not yet taken is discarded, a READ is abandoned, a
command goes on in BACKGROUND or loses the rest of its response; the next select may carry a frame (R127). -/
def State.releaseSelect (s : State) (p : PortId) : State :=
  (s.modPort p (fun u => { u with selectActive := false, ignoring := false })).endFrame p

/-- SELECT_RELEASE (R130). -/
def execSelectRelease (p : PortId) (s : State) : Host.Outcome State Fault Refusal := .next (s.releaseSelect p)

/-- HOLDOFF_EXPIRY (R144): the timer stops, and NOTICE follows the set and mask. A stopped timer does not expire. -/
def execHoldoffExpiry (p : PortId) (s : State) : Host.Outcome State Fault Refusal :=
  .next (s.modPort p (fun u => PortUnit.settleNotice { u with holdoff := none }))

end Sys2Proof.Machine
end

