-- ==== Sys2Proof/Machine/Staging.lean ====
section
/-! DEFINITION. The staging commands and COMMIT (chapter 10): their tests at the take, in order, and what they do. -/

namespace Sys2Proof.Machine

/-- The staging window an argument names: 0 for S0, 1 for S1 (1.5). -/
def stagingOf (window : Byte) : Option StagingId :=
  if h : window.toNat < 2 then some ⟨window.toNat, h⟩ else none

/-- The tag an argument names. -/
def tagOf (tag : Byte) : Option Tag := if h : tag.toNat < 8 then some ⟨tag.toNat, h⟩ else none

/-- A RANGE refusal of STAGE-ERASE or STAGE-WRITE, with its violation report (R61, R132). -/
def State.refuseOutside (s : State) (p : PortId) (code : Byte) : State :=
  (s.violate p .writeOutside code.toNat).refuse p .range

/-! ## STAGE-OPEN (R181) -/

/-- A staging window of this tag is OPEN or SEALING (R181, test 5). -/
def State.stagingBusy (s : State) (t : Tag) : Bool :=
  allStaging.any (fun w => (s.staging w).tag == t && ((s.staging w).state == .opened || (s.staging w).state == .sealing))

/-- The lowest-numbered staging window that is FREE or DISCARDED (R181, test 6). -/
def State.stagingToOpen (s : State) : Option StagingId :=
  allStaging.find? (fun w => (s.staging w).state == .free || (s.staging w).state == .discarded)

/-- The fields of a staging window opened on a slot of a tag (R181). -/
def State.openedWindow (s : State) (t : Tag) (x : SlotId) : StagingWindow :=
  { StagingWindow.empty with
    state := .opened
    tag := t
    slot := some x
    base := s.slotAddr t x
    sizePages := (s.directory t).slotSize * 16 }

/-- STAGE-OPEN from test 3 on, for a tag. -/
def State.stageOpenTag (s : State) (p : PortId) (t : Tag) : State :=
  match (s.image t).state, (s.image t).slot with
  | .accepted, some selected =>
    if s.slotValid t selected.other then
      if s.stagingBusy t then s.refuse p .busy
      else
        match s.stagingToOpen with
        | none => s.refuse p .full
        | some w =>
          (s.modStaging w (fun _ => s.openedWindow t selected.other)).done p
            [byteOf w.val, byteOf (slotCode (some selected.other))]
    else s.refuse p .state
  | _, _ => s.refuse p .state

/-- STAGE-OPEN at its take (R181). The taking port is the formatter's (R132, test 2). -/
def State.takeStageOpen (s : State) (p : PortId) (tag : Byte) : State :=
  match tagOf tag with
  | none => s.refuse p .range
  | some t => if (s.life p).state = .confirmed then s.stageOpenTag p t else s.refuse p .state

/-! ## STAGE-ERASE (R182) -/

/-- STAGE-ERASE at its take (R182). -/
def State.takeStageErase (s : State) (p : PortId) (window : Byte) (sector : BitVec 16) : State :=
  match stagingOf window with
  | none => s.refuseOutside p 0x12
  | some w =>
    if (s.staging w).state ≠ .opened then s.refuse p .state
    else if (s.staging w).sizePages / 16 ≤ sector.toNat then s.refuseOutside p 0x12
    else
      (s.execute p 0x12).request
        { purpose := .erase p, addr := (s.staging w).base + sector.toNat * 65536, len := 65536, cls := .staging, live := true }

/-! ## STAGE-WRITE (R183) -/

/-- Test 3 of STAGE-WRITE fails: the bytes leave the slot, or cross a program page (R183). -/
def writeOutside (w : StagingWindow) (offset n : Nat) : Bool :=
  w.sizePages * 4096 < offset + n || offset / 256 != (offset + n - 1) / 256

/-- A write at this offset lies in the slot's last sector (R183). -/
def inLastSector (w : StagingWindow) (offset : Nat) : Bool := (w.sizePages / 16 - 1) * 65536 ≤ offset

/-- The first two changes of a STAGE-WRITE: WRITTEN, and NEAR-END WARNED with STAGE_WARN (R183). -/
def State.noteWrite (s : State) (w : StagingId) (offset : Nat) : State :=
  let s := s.modStaging w (fun x => { x with written := true })
  if inLastSector (s.staging w) offset && !(s.staging w).warned then
    (s.modStaging w (fun x => { x with warned := true })).postFormatter .stageWarn
  else s

/-- STAGE-WRITE at its take (R183). -/
def State.takeStageWrite (s : State) (p : PortId) (window : Byte) (offset : BitVec 32) (data : List Byte) : State :=
  match stagingOf window with
  | none => s.refuseOutside p 0x13
  | some w =>
    if (s.staging w).state ≠ .opened then s.refuse p .state
    else if writeOutside (s.staging w) offset.toNat data.length then s.refuseOutside p 0x13
    else
      ((s.noteWrite w offset.toNat).execute p 0x13).request
        { purpose := .program p data, addr := (s.staging w).base + offset.toNat, len := data.length, cls := .staging,
          live := true }

/-! ## SEAL and STAGE-CLOSE (R185, R187) -/

/-- SEAL at its take (R185). -/
def State.takeSeal (s : State) (p : PortId) (window : Byte) : State :=
  match stagingOf window with
  | none => s.refuse p .range
  | some w =>
    if (s.staging w).state = .opened ∧ (s.staging w).written then
      let s := s.modStaging w (fun x => { x with state := .sealing, reason := .none, firstBad := none, checked := 0 })
      (State.takeSealRequest { s with mu := { s.mu with sealRequests := s.mu.sealRequests ++ [w] } }).done p []
    else s.refuse p .state

/-- A staging window is closed (R187): a seal is cancelled wherever it stands, and the window becomes FREE. The end of a
seal in the sweep stream is a pick moment (R175). -/
def State.closeWindow (s : State) (w : StagingId) : State :=
  let s := if (s.staging w).state = .sealing then s.cancelSeal w else s
  (s.modStaging w (fun _ => StagingWindow.empty)).settle

/-- STAGE-CLOSE at its take (R187). -/
def State.takeStageClose (s : State) (p : PortId) (window : Byte) : State :=
  match stagingOf window with
  | none => s.refuse p .range
  | some w => (s.closeWindow w).done p []

/-! ## COMMIT (R189) -/

/-- COMMIT from test 4 on (R189): a VERSION that is not above the floor needs no row. -/
def State.commitTag (s : State) (p : PortId) (t : Tag) : State :=
  let version := (s.image t).version
  if version ≠ s.floorOf t ∧ 24 ≤ (s.ots.floors[t]).length then s.refuse p .exhausted
  else if s.floorOf t < version then
    (s.execute p 0x16).queueRows [{ row := .floor t version, source := some (p, 0x16) }]
  else s.done p (leBytes 2 (s.floorOf t))

/-- COMMIT at its take (R189): tests 2 and 3 ask of the tag what R176 asks of a print-required one. -/
def State.takeCommit (s : State) (p : PortId) (tag : Byte) : State :=
  match tagOf tag with
  | none => s.refuse p .range
  | some t =>
    if s.printTagReady t then s.commitTag p t else s.refuse p .state

end Sys2Proof.Machine
end

