-- ==== Sys2Proof/Machine/Store.lean ====
section
/-! DEFINITION. The store commands REVOKE, RETIRE-ROOT and PROVISION (chapter 11) at their takes. -/

namespace Sys2Proof.Machine

/-- An ACCEPTED image window has this serial (R194, test 2). -/
def State.serialInUse (s : State) (serial : Serial) : Bool :=
  allTags.any (fun t => (s.image t).state == .accepted && (s.image t).serial == serial)

/-- REVOKE at its take (R194). -/
def State.takeRevoke (s : State) (p : PortId) (serial : Serial) : State :=
  if serial = 0 then s.refuse p .range
  else if s.serialInUse serial then s.refuse p .guard
  else if s.ots.revoked.contains serial then s.done p []
  else if 24 ≤ s.ots.revoked.length then s.refuse p .full
  else (s.execute p 0x17).queueRows [{ row := .revocation serial, source := some (p, 0x17) }]

/-- Root key slots in ascending order. -/
def allRoots : List (Fin 4) := [0, 1, 2, 3]

/-- RETIRE-ROOT at its take (R193). -/
def State.takeRetireRoot (s : State) (p : PortId) (rootIndex : Byte) : State :=
  if h : rootIndex.toNat < 4 then
    let r : Fin 4 := ⟨rootIndex.toNat, h⟩
    if !s.rootLive r then s.refuse p .state
    else if allRoots.all (fun q => q == r || !s.rootLive q) then s.refuse p .guard
    else (s.execute p 0x18).queueRows [{ row := .retire r, source := some (p, 0x18) }]
  else s.refuse p .range

/-- Root key slot r is EMPTY: its key row and its retire row are BLANK (R193). -/
def State.rootEmpty (s : State) (r : Fin 4) : Bool := (s.ots.rootKeys[r]).isNone && !s.ots.retired[r]

/-- The keys of a PROVISION with the slots they are meant for (R197). -/
def keySlots (keys : List Key) : List (Fin 4 × Key) := allRoots.zip keys

/-- Test 3 of PROVISION: each slot is EMPTY, or LIVE holding exactly the key meant for it (R197). -/
def State.keysFit (s : State) (keys : List Key) : Bool :=
  (keySlots keys).all (fun e => s.rootEmpty e.1 || (s.rootLive e.1 && s.ots.rootKeys[e.1] == some e.2))

/-- The row writes of a PROVISION, in order (R197). -/
def State.provisionRows (s : State) (p : PortId) (config : List Byte) (keys : List Key) : List RowWrite :=
  ((keySlots keys).filter (fun e => s.rootEmpty e.1)).map
      (fun e => { row := .rootKey e.1 e.2, source := some (p, 0x19) })
    ++ [{ row := .config config, source := some (p, 0x19) }]

/-- PROVISION at its take (R197). -/
def State.takeProvision (s : State) (p : PortId) (config : List Byte) (keys : List Key) : State :=
  if s.ots.config.isSome then s.refuse p .state
  else if !configValid config then s.refuse p .range
  else if !s.keysFit keys then s.refuse p .state
  else (s.execute p 0x19).queueRows (s.provisionRows p config keys)

end Sys2Proof.Machine
end

