-- ==== Sys2Proof/Machine/Frames.lean ====
section
/-! DEFINITION. Frames (7.1 to 7.4): their arrival byte by byte or whole, their take with the tests of R132, and the
commands common to all ports; with the meaning of FRAME_BYTE_RECEIVED. -/

namespace Sys2Proof.Machine

/-! ## The commands common to all ports (7.3, 7.4) -/

/-- READ at its take (R49, R50, R135): E takes its after-value, and the stream reaches its first page. -/
def State.takeRead (s : State) (p : PortId) (offset : BitVec 24) (length : BitVec 16) : State :=
  let start := (s.port p).e.toNat * 16777216 + offset.toNat
  let after := (start + length.toNat) % 268435456 / 16777216
  let stream : ReadStream :=
    { start := start, length := length.toNat, passed := 0, serve := .answer .outside, stopAt := 0,
      reportedOutside := false, reportedWithheld := false }
  let s := s.modPort p (fun u =>
    { u with e := BitVec.ofNat 4 after, worst := .ok, frame := .responding, response := [], stream := some stream })
  ((s.classify p).serveList).evalPermit

/-- SET-EXT at its take (R133, R136). -/
def State.takeSetExt (s : State) (p : PortId) (value : Byte) : State :=
  if 15 < value.toNat then s.refuse p .range
  else (s.modPort p (fun u => { u with e := BitVec.ofNat 4 value.toNat })).done p []

/-- STATUS at its take (R137). -/
def State.takeStatus (s : State) (p : PortId) : State := s.done p (statusRecord s p)

/-- NOTICE-READ at its take (R147): the set is emptied and the holdoff timer stops. -/
def State.takeNoticeRead (s : State) (p : PortId) : State :=
  (s.modPort p (fun u => { u with events := 0, holdoff := none })).done p (noticeRecord (s.port p))

/-- NOTICE-MASK at its take (R146). -/
def State.takeNoticeMask (s : State) (p : PortId) (mask : Byte) : State :=
  (s.modPort p (fun u => PortUnit.settleNotice { u with mask := mask &&& 0x7F })).done p []

/-- VIOLATION-READ at its take (R140): the record is emptied. -/
def State.takeViolationRead (s : State) (p : PortId) : State :=
  (s.modPort p (fun u => { u with violation := Violation.empty })).done p (violationRecord (s.port p).violation)

/-- REPORT at its take (R138). -/
def State.takeReport (s : State) (p : PortId) : State := s.done p (reportRecord s)

/-- BOOT-DONE at its take (R155): a RUNNING port becomes CONFIRMED and its deadline timer stops. -/
def State.takeBootDone (s : State) (p : PortId) : State :=
  if (s.life p).state = .running then
    ((s.modLife p (fun l => { l with state := .confirmed, deadline := none })).evalPermit).done p []
  else s.refuse p .state

/-- REPORT-CLEAR at its take (R139): the timeout record is emptied. -/
def State.takeReportClear (s : State) (p : PortId) : State :=
  State.done { s with fc := { s.fc with timeout := TimeoutRecord.empty } } p []

/-! ## The take (R128, R132) -/

/-- A frame that has passed tests 1 to 3 is carried out by its owner (R141). -/
def State.carryOut (s : State) (p : PortId) : Request → State
  | .malformed _ _ => s.refuse p .frame
  | .read offset length => s.takeRead p offset length
  | .setExt v => s.takeSetExt p v
  | .status => s.takeStatus p
  | .noticeRead => s.takeNoticeRead p
  | .noticeMask m => s.takeNoticeMask p m
  | .violationRead => s.takeViolationRead p
  | .report => s.takeReport p
  | .bootDone => s.takeBootDone p
  | .reportClear => s.takeReportClear p
  | .stageOpen t => s.takeStageOpen p t
  | .stageErase w sector => s.takeStageErase p w sector
  | .stageWrite w offset data => s.takeStageWrite p w offset data
  | .sealWindow w => s.takeSeal p w
  | .stageClose w => s.takeStageClose p w
  | .commit t => s.takeCommit p t
  | .revoke serial => s.takeRevoke p serial
  | .retireRoot r => s.takeRetireRoot p r
  | .provision config keys => s.takeProvision p config keys
  | .restart => s.partRestart .command none

/-- The take of a frame: tests 1 to 3 of R132 in order, then the command. A frame refused at test 2 makes a COMMAND
violation report (R61). -/
def State.take (s : State) (p : PortId) (r : Request) : State :=
  let s := s.modPort p (fun u => { u with frame := .idle, frameBytes := [] })
  if !r.wellFormed then s.refuse p .frame
  else if r.formatterOnly && s.formatterPort != some p then (s.violate p .command r.code.toNat).refuse p .notPermitted
  else if s.factory && !r.takenInFactory then s.refuse p .state
  else s.carryOut p r

/-- A frame is complete: it is taken at once, or DEFERRED behind a BACKGROUND command (R128). -/
def State.arrive (s : State) (p : PortId) (bytes : List Byte) (r : Request) : State :=
  match (s.port p).background with
  | none => s.take p r
  | some _ => s.modPort p (fun u => { u with frame := .deferred, frameBytes := bytes })

/-- The frame that header and argument bytes spell (R12). -/
def requestOf (bytes : List Byte) : Request := parseFrame (bytes.getD 0 0) (bytes.drop 3)

/-- Header and arguments have all arrived (R128). -/
def frameComplete (bytes : List Byte) : Bool := 3 ≤ bytes.length && bytes.length == 3 + fieldAt bytes 1 2

/-- One byte of a frame reaches a port (R127, R128): it is discarded on a port that gives no responses, and not
interpreted after the frame's last argument byte. -/
def State.receiveByte (s : State) (p : PortId) (b : Byte) : State :=
  let s := s.modPort p (fun u => { u with selectActive := true })
  if !s.answers p || (s.port p).ignoring then s
  else if (s.port p).frame = .idle ∨ (s.port p).frame = .receiving then
    let bytes := (s.port p).frameBytes ++ [b]
    if frameComplete bytes then s.arrive p bytes (requestOf bytes)
    else s.modPort p (fun u => { u with frame := .receiving, frameBytes := bytes })
  else s

/-- A whole frame reaches a port within one select. On a port whose FRAME STATE is IDLE it is complete at once; in any
other state its bytes are treated one by one (log entry 9). -/
def State.deliverFrame (s : State) (p : PortId) (r : Request) : State :=
  if s.answers p && !(s.port p).ignoring && (s.port p).frame == .idle then
    (s.modPort p (fun u => { u with selectActive := true })).arrive p r.bytes r
  else r.bytes.foldl (fun s b => s.receiveByte p b) s

/-- A DEFERRED frame is taken when the BACKGROUND command's work has ended (R128). -/
def State.takeDeferred (s : State) (p : PortId) : State :=
  if s.answers p && (s.port p).frame == .deferred && (s.port p).background.isNone then
    s.take p (requestOf (s.port p).frameBytes)
  else s

/-- The DEFERRED frames whose wait has ended are taken (R128). -/
def State.takeDeferredFrames (s : State) : State := allPorts.foldl State.takeDeferred s

/-! ## Meanings -/

/-- FRAME_BYTE_RECEIVED (R128). -/
def execFrameByteReceived (p : PortId) (b : Byte) (s : State) : Host.Outcome State Fault Refusal := .next (s.receiveByte p b)

end Sys2Proof.Machine
end

