-- ==== Sys2Proof/Machine/Commands.lean ====
section
/-! DEFINITION. The meanings of the rows of the table that name a command: a whole frame of that command reaches a port
(1.5), with the tests, the effect and the response its rule gives it. -/

namespace Sys2Proof.Machine

/-- FRAME_REFUSED (R132): a frame of this code and these arguments, which the table of 1.5 reads like any other, so that
test 1 decides at its take whether it is refused. -/
def execFrameRefused (p : PortId) (code : Byte) (args : List Byte) (s : State) : Host.Outcome State Fault Refusal :=
  .next (s.deliverFrame p (parseFrame code args))

/-- READ (R135). -/
def execRead (p : PortId) (offset : BitVec 24) (length : BitVec 16) (s : State) : Host.Outcome State Fault Refusal :=
  .next (s.deliverFrame p (.read offset length))

/-- SET-EXT (R136). -/
def execSetExt (p : PortId) (value : Byte) (s : State) : Host.Outcome State Fault Refusal :=
  .next (s.deliverFrame p (.setExt value))

/-- STATUS (R137). -/
def execStatus (p : PortId) (s : State) : Host.Outcome State Fault Refusal :=
  .next (s.deliverFrame p .status)

/-- NOTICE-READ (R147). -/
def execNoticeRead (p : PortId) (s : State) : Host.Outcome State Fault Refusal :=
  .next (s.deliverFrame p .noticeRead)

/-- NOTICE-MASK (R146). -/
def execNoticeMask (p : PortId) (mask : Byte) (s : State) : Host.Outcome State Fault Refusal :=
  .next (s.deliverFrame p (.noticeMask mask))

/-- VIOLATION-READ (R140). -/
def execViolationRead (p : PortId) (s : State) : Host.Outcome State Fault Refusal :=
  .next (s.deliverFrame p .violationRead)

/-- REPORT (R138). -/
def execReport (p : PortId) (s : State) : Host.Outcome State Fault Refusal :=
  .next (s.deliverFrame p .report)

/-- BOOT-DONE (R155). -/
def execBootDone (p : PortId) (s : State) : Host.Outcome State Fault Refusal :=
  .next (s.deliverFrame p .bootDone)

/-- REPORT-CLEAR (R139). -/
def execReportClear (p : PortId) (s : State) : Host.Outcome State Fault Refusal :=
  .next (s.deliverFrame p .reportClear)

/-- STAGE-OPEN (R181). -/
def execStageOpen (p : PortId) (tag : Byte) (s : State) : Host.Outcome State Fault Refusal :=
  .next (s.deliverFrame p (.stageOpen tag))

/-- STAGE-ERASE (R182). -/
def execStageErase (p : PortId) (window : Byte) (sector : BitVec 16) (s : State) : Host.Outcome State Fault Refusal :=
  .next (s.deliverFrame p (.stageErase window sector))

/-- STAGE-WRITE (R183). -/
def execStageWrite (p : PortId) (window : Byte) (offset : BitVec 32) (data : List Byte) (s : State) : Host.Outcome State Fault Refusal :=
  .next (s.deliverFrame p (.stageWrite window offset data))

/-- SEAL (R185). -/
def execSeal (p : PortId) (window : Byte) (s : State) : Host.Outcome State Fault Refusal :=
  .next (s.deliverFrame p (.sealWindow window))

/-- STAGE-CLOSE (R187). -/
def execStageClose (p : PortId) (window : Byte) (s : State) : Host.Outcome State Fault Refusal :=
  .next (s.deliverFrame p (.stageClose window))

/-- COMMIT (R189). -/
def execCommit (p : PortId) (tag : Byte) (s : State) : Host.Outcome State Fault Refusal :=
  .next (s.deliverFrame p (.commit tag))

/-- REVOKE (R194). -/
def execRevoke (p : PortId) (serial : Serial) (s : State) : Host.Outcome State Fault Refusal :=
  .next (s.deliverFrame p (.revoke serial))

/-- RETIRE-ROOT (R193). -/
def execRetireRoot (p : PortId) (rootIndex : Byte) (s : State) : Host.Outcome State Fault Refusal :=
  .next (s.deliverFrame p (.retireRoot rootIndex))

/-- PROVISION (R197). -/
def execProvision (p : PortId) (config : List Byte) (keys : List Key) (s : State) : Host.Outcome State Fault Refusal :=
  .next (s.deliverFrame p (.provision config keys))

/-- RESTART (R162). -/
def execRestart (p : PortId) (s : State) : Host.Outcome State Fault Refusal :=
  .next (s.deliverFrame p .restart)

end Sys2Proof.Machine
end

