-- ==== Sys2Proof/Machine/FlashEvents.lean ====
section
/-! DEFINITION. How the ops of the flash port end (chapter 6): READs, PROGRAM and ERASE, SUSPEND, the time-outs and the
RESET; with the meanings of the rows of the table that name those ends. An event whose op is not under way is no event
of the part and has no effect (log entry 7). -/

namespace Sys2Proof.Machine

/-! ## The op under way -/

/-- The current op, when its purpose is of this kind. -/
def State.currentOp (s : State) (kind : Purpose → Bool) : Option CurrentOp :=
  match s.fc.port with
  | .op c => if kind c.req.purpose then some c else none
  | .idle => none
  | .reset _ => none

/-- A probe. -/
def Purpose.isProbe : Purpose → Bool
  | .probe _ => true
  | _ => false

/-- A group READ. -/
def Purpose.isGroup : Purpose → Bool
  | .group _ => true
  | _ => false

/-- A page READ or continuation. -/
def Purpose.isPage : Purpose → Bool
  | .page _ _ => true
  | _ => false

/-- A RAW READ. -/
def Purpose.isRaw : Purpose → Bool
  | .raw _ => true
  | _ => false

/-- A PROGRAM. -/
def Purpose.isProgram : Purpose → Bool
  | .program _ _ => true
  | _ => false

/-- The bytes of the current READ that have not been delivered before. -/
def State.arriving (s : State) (c : CurrentOp) (given : List Byte) : List Byte :=
  Memory.deliver s.flash (c.req.addr + c.delivered) (c.req.len - c.delivered) given

/-- What closes the end of an op (R97, R111, R128, R165, R177): the needs and picks that its result makes, the pick of
the next op, and the take of a frame deferred behind the command it served. R111 and R112 let a request that joins, is
withdrawn or changes class at the moment of the pick be taken first or second: what the op's end itself causes comes before
the pick (DESIGN CHOICE, log entry 11). -/
def State.closeOp (s : State) : State := s.settle.finishOp.takeDeferredFrames

/-! ## READs that complete -/

/-- FLASH SECTORS of the config record (R4). -/
def State.flashSectors (s : State) : Nat := (s.cfg.map (·.flashSectors)).getD 0

/-- The directory READ completes (R2, R3). -/
def State.directoryReadDone (s : State) (bytes : List Byte) : State :=
  match s.currentOp (· == .directory) with
  | some c =>
    let data := s.arriving c bytes
    ((s.fillBuffer data).directoryDone (judgeDirectory s.flashSectors data)).closeOp
  | none => s

/-- A probe READ completes (R23): its VERSION is the two bytes at manifest offset 8. -/
def State.probeReadDone (s : State) (bytes : List Byte) : State :=
  match s.currentOp Purpose.isProbe with
  | some c =>
    let data := s.arriving c bytes
    (match c.req.purpose with
     | .probe x => ((s.fillBuffer data).probeEnded x (some (fieldAt data 8 2))).closeOp
     | _ => s)
  | none => s

/-- The walker's manifest READ completes (R24). -/
def State.manifestReadDone (s : State) (bytes : List Byte) : State :=
  match s.currentOp (· == .walkerManifest) with
  | some c => ((s.fillBuffer (s.arriving c bytes)).walkerManifestRead).closeOp
  | none => s

/-- The seal check's manifest READ completes (R38); the data of a cancelled one is discarded and the buffer released
(R40). -/
def State.sealManifestReadDone (s : State) (bytes : List Byte) : State :=
  match s.currentOp (· == .sealManifest) with
  | some c =>
    let s := s.fillBuffer (s.arriving c bytes)
    (match c.req.live, s.mu.sealCheck with
     | true, some k => (s.sealManifestRead k).closeOp
     | _, _ => s.releaseBuffer.closeOp)
  | none => s

/-- A group READ completes (R73). -/
def State.groupReadDone (s : State) (bytes : List Byte) : State :=
  match s.currentOp Purpose.isGroup with
  | some c =>
    (match c.req.purpose with
     | .group e => ((s.dropLane).groupCompared e c.req.addr (s.arriving c bytes)).closeOp
     | _ => s)
  | none => s

/-- A page READ or continuation completes (R76): the stream is the hash state with the last bytes. The data of a READ
whose record was cancelled is discarded (R80). -/
def State.pageReadDone (s : State) (bytes : List Byte) : State :=
  match s.currentOp Purpose.isPage with
  | some c =>
    (match c.req.purpose, c.req.live with
     | .page w i, true =>
       (match s.record w i with
        | some r => (s.pageCompared r (((s.iu.lane.map (·.now)).getD []) ++ s.arriving c bytes)).closeOp
        | none => s.closeOp)
     | _, _ => s.closeOp)
  | none => s

/-- A RAW READ completes: its last bytes are ready for the port behind those delivered before (R53, R131); those of an
abandoned READ are discarded (R57). -/
def State.rawReadDone (s : State) (bytes : List Byte) : State :=
  match s.currentOp Purpose.isRaw with
  | some c =>
    (match c.req.purpose, c.req.live with
     | .raw p, true =>
       (match s.serving p with
        | some (.raw ready _) => (s.setServe p (.raw (ready ++ s.arriving c bytes) false)).closeOp
        | _ => s.closeOp)
     | _, _ => s.closeOp)
  | none => s

/-! ## The 512-byte boundary (R100) -/

/-- Bytes of the page before the next byte the current op delivers. -/
def CurrentOp.pageOffset (c : CurrentOp) : Nat := 4096 - c.req.len + c.delivered

/-- A request that makes a SWEEP stream park is waiting (R100). -/
def State.parkingWork (s : State) : Bool :=
  !(s.fc.queues.demand.isEmpty && s.fc.queues.prefetch.isEmpty && s.fc.queues.walker.isEmpty
    && s.fc.queues.staging.isEmpty)

/-- The bytes read so far stand in a record's destination (R99). -/
def State.setDestination (s : State) (r : FillRecord) (bytes : List Byte) : State :=
  match r.dest with
  | .slot (some n) => s.modSlot n (fun b => { b with data := bytes })
  | .slot none => s
  | .scratch => { s with pb := { s.pb with scratch := bytes } }
  | .scratchThenSlot => { s with pb := { s.pb with scratch := bytes } }

/-- A record parks (R64, R100): the hash state is saved, the rest of the page joins the head of the SWEEP queue, and the
flash is free. -/
def State.park (s : State) (c : CurrentOp) (r : FillRecord) (stream : List Byte) : State :=
  let offset := c.pageOffset + 512
  let s := (s.dropLane).modRecord r.win r.page (fun r => { r with state := .parked })
  let s := { s with iu := { s.iu with park := some { win := r.win, page := r.page, hash := stream } } }
  State.finishOp (s.requestAtHead
    { purpose := .page r.win r.page, addr := r.pageAddr + offset, len := 4096 - offset, cls := .sweep, live := true })

/-- The current page READ goes on past a boundary. -/
def State.passBoundary (s : State) (c : CurrentOp) : State :=
  { s with fc := { s.fc with port := .op { c with delivered := c.delivered + 512 } } }

/-- The running page READ reaches a 512-byte boundary, 3584 at the latest (R100). -/
def State.boundary (s : State) (bytes : List Byte) : State :=
  match s.currentOp Purpose.isPage with
  | some c =>
    if c.pageOffset + 512 ≤ 3584 then
      (match c.req.purpose, c.req.live with
       | .page w i, true =>
         (match s.record w i, s.iu.lane with
          | some r, some lane =>
            let stream := lane.now ++ Memory.deliver s.flash (c.req.addr + c.delivered) 512 bytes
            let s := s.setDestination r stream
            if r.cls = .sweep ∧ s.parkingWork then s.park c r stream
            else State.passBoundary { s with iu := { s.iu with lane := some { lane with now := stream } } } c
          | _, _ => s.passBoundary c)
       | _, _ => s.passBoundary c)
    else s
  | none => s

/-! ## PROGRAM and ERASE (R114, R115, R182, R183) -/

/-- The PROGRAM completes: its bytes are in the flash and STAGE-WRITE is answered DONE (R183). -/
def State.programDone (s : State) : State :=
  match s.currentOp Purpose.isProgram with
  | some c =>
    (match c.req.purpose with
     | .program p data =>
       (((s.program c.req.addr data).commandEnds p 0x13 (doneResponse [])).finishOp).takeDeferredFrames
     | _ => s)
  | none => s

/-- An ERASE completes: the sector reads 0xFF, the erase state is NONE and STAGE-ERASE is answered DONE (R115, R182). -/
def State.eraseDone (s : State) (r : FlashRequest) : State :=
  let s := { (s.eraseSector r.addr) with fc := { s.fc with erase := .none } }
  let s := match r.purpose with
    | .erase p => s.commandEnds p 0x12 (doneResponse [])
    | _ => s
  s.finishOp.takeDeferredFrames

/-- The running ERASE completes (R115). -/
def State.eraseCompletes (s : State) : State :=
  match s.fc.erase with
  | .erasing r => if s.fc.runsErase then s.eraseDone r else s
  | _ => s

/-- An interrupted erase is SUSPENDED (R114): until it has ended its sector may be partly erased, so that from here on a read
of it finds free bytes (R115; log entry 19). -/
def State.suspendErase (s : State) (r : FlashRequest) : State :=
  State.disturb { s with fc := { s.fc with erase := .suspended r } } r.addr 65536

/-- The flash acknowledges SUSPEND (R114): the erase is SUSPENDED and the flash free, or it had already finished. -/
def State.suspendAcknowledged (s : State) (finished : Bool) : State :=
  match s.fc.erase with
  | .suspending r =>
    if s.fc.runsErase then
      if finished then s.eraseDone r else (s.suspendErase r).finishOp
    else s
  | _ => s

/-! ## Time-outs (R117 to R119) -/

/-- The flash port is occupied by a RESET (R120). -/
def State.startReset (s : State) (after : AfterReset) : State := { s with fc := { s.fc with port := .reset after } }

/-- A READ reaches 5 ms (R118): the first time it is to be retried after the RESET, the second time to end FAULT. The bytes
a RAW READ had delivered by then have reached its port (R53). -/
def State.readTimesOut (s : State) (bytes : List Byte) : State :=
  let s := s.rawDelivers bytes
  match s.currentOp Purpose.isRead with
  | some c => if c.retryUsed then s.startReset (.failRead c) else s.startReset (.retryRead { c with retryUsed := true })
  | none => s

/-- A PROGRAM reaches 3 ms (R119). -/
def State.programTimesOut (s : State) : State :=
  match s.currentOp Purpose.isProgram with
  | some c => s.startReset (.failProgram c.req)
  | none => s

/-- An ERASE reaches 3000 ms of ERASING time (R119). -/
def State.eraseTimesOut (s : State) : State :=
  match s.fc.erase with
  | .erasing r => if s.fc.runsErase then s.startReset (.failErase r false) else s
  | _ => s

/-- SUSPEND stays unacknowledged for 1 ms (R119). -/
def State.suspendTimesOut (s : State) : State :=
  match s.fc.erase with
  | .suspending r => if s.fc.runsErase then s.startReset (.failErase r true) else s
  | _ => s

/-! ## The end of a RESET (R118 to R121) -/

/-- An ERASE ends FAULT (R119, R121): its sector is left as the flash leaves it, the erase state is NONE, the staging
command gets the fault response, and the FAULT is recorded and posted. -/
def State.eraseFails (s : State) (r : FlashRequest) (k : TimeoutKind) : State :=
  let s := State.disturb { s with fc := { s.fc with erase := .none } } r.addr 65536
  let s := match r.purpose with
    | .erase p => s.commandEnds p 0x12 (refusedResponse .fault)
    | _ => s
  s.recordFault k r

/-- A RESET after a READ time-out aborts a SUSPENDED erase (R119). -/
def State.abortSuspended (s : State) : State :=
  match s.fc.erase with
  | .suspended r => s.eraseFails r .erase
  | _ => s

/-- A PROGRAM ends FAULT (R119, R121, R183): its program page is left as the flash leaves it. -/
def State.programFails (s : State) (r : FlashRequest) : State :=
  let s := s.disturb (r.addr / 256 * 256) 256
  let s := match r.purpose with
    | .program p _ => s.commandEnds p 0x13 (refusedResponse .fault)
    | _ => s
  s.recordFault .program r

/-- A READ that ends FAULT is delivered to its requester, which acts as its chapter states (R121, step 1). -/
def State.deliverFault (s : State) (c : CurrentOp) : State :=
  match c.req.purpose with
  | .directory => s.directoryDone directoryUnusable
  | .probe x => s.probeEnded x none
  | .walkerManifest => s.candidateFails .flashFault
  | .sealManifest =>
    (match c.req.live, s.mu.sealCheck with
     | true, some k => (s.sealRejected k.win .flashFault).releaseBuffer
     | _, _ => s.releaseBuffer)
  | .group e => (s.dropLane).groupFaulted e
  | .page w i =>
    if c.req.live then
      (match s.record w i with
       | some r => (s.dropLane).endFault r
       | none => s)
    else s
  | .raw p =>
    if c.req.live then
      (match s.serving p with
       | some (.raw _ _) => s.setServe p (.raw [] true)
       | _ => s)
    else s
  | .program _ _ => s
  | .erase _ => s

/-- How many bytes of a READ its retry leaves out (R118): the bytes of a RAW READ already passed to the port. The bytes
that were ready and not passed are read again, and every other READ starts from its first byte. The spec does not say
where the retry of a RAW READ starts that no port takes any more, abandoned before the RESET ends (R57, R113): the model
starts it at the op's first byte (DESIGN CHOICE, log entry 29). -/
def State.retryFrom (s : State) (c : CurrentOp) : Nat :=
  match c.req.purpose, c.req.live with
  | .raw p, true =>
    (match s.serving p with
     | some (.raw ready _) => c.delivered - ready.length
     | _ => 0)
  | _, _ => 0

/-- The bytes of a RAW READ that were ready and not passed are given up for the retry (R118). -/
def State.dropReady (s : State) (c : CurrentOp) : State :=
  match c.req.purpose, c.req.live with
  | .raw p, true =>
    (match s.serving p with
     | some (.raw _ f) => s.setServe p (.raw [] f)
     | _ => s)
  | _, _ => s

/-- The stream lane returns to the hash state it held when the op began (R118). -/
def State.rewindLane (s : State) : State :=
  { s with iu := { s.iu with lane := s.iu.lane.map (fun l => { l with now := l.start }) } }

/-- The READ starts again at once, at the clock step then in force (R118). -/
def State.retryRead (s : State) (c : CurrentOp) : State :=
  { (s.dropReady c).rewindLane with
    fc := { s.fc with port := .op { c with delivered := s.retryFrom c, step := s.fc.step } } }

/-- The 100 µs flash RESET ends (R118 to R121): the first pick after a reset of the part, or the retry, or the FAULT. -/
def State.resetEnds (s : State) : State :=
  match s.fc.port with
  | .reset .first => s.finishOp
  | .reset (.retryRead c) => ((s.abortSuspended).retryRead c).takeDeferredFrames
  | .reset (.failRead c) => (((s.abortSuspended).deliverFault c).recordFault .read c.req).closeOp
  | .reset (.failProgram r) => ((s.programFails r).finishOp).takeDeferredFrames
  | .reset (.failErase r bySuspend) =>
    ((s.eraseFails r (if bySuspend then .suspend else .erase)).finishOp).takeDeferredFrames
  | .idle => s
  | .op _ => s

/-- A READ of one kind ends FAULT at the end of its RESET: the step of RESET_END when that RESET is under way (R121;
log entry 3). -/
def State.readFaultEnds (s : State) (kind : Purpose → Bool) : State :=
  match s.fc.port with
  | .reset (.failRead c) => if kind c.req.purpose then s.resetEnds else s
  | _ => s

/-! ## Meanings -/

/-- DIRECTORY_READ_END (R3). -/
def execDirectoryReadEnd (r : ReadEnd) (s : State) : Host.Outcome State Fault Refusal :=
  match r with
  | .complete bytes => .next (s.directoryReadDone bytes)
  | .fault => .next (s.readFaultEnds (· == .directory))

/-- PROBE_READ_END (R23). -/
def execProbeReadEnd (r : ReadEnd) (s : State) : Host.Outcome State Fault Refusal :=
  match r with
  | .complete bytes => .next (s.probeReadDone bytes)
  | .fault => .next (s.readFaultEnds Purpose.isProbe)

/-- MANIFEST_READ_END (R24). -/
def execManifestReadEnd (r : ReadEnd) (s : State) : Host.Outcome State Fault Refusal :=
  match r with
  | .complete bytes => .next (s.manifestReadDone bytes)
  | .fault => .next (s.readFaultEnds (· == .walkerManifest))

/-- SEAL_MANIFEST_READ_END (R38). -/
def execSealManifestReadEnd (r : ReadEnd) (s : State) : Host.Outcome State Fault Refusal :=
  match r with
  | .complete bytes => .next (s.sealManifestReadDone bytes)
  | .fault => .next (s.readFaultEnds (· == .sealManifest))

/-- GROUP_READ_END (R73). -/
def execGroupReadEnd (bytes : List Byte) (s : State) : Host.Outcome State Fault Refusal := .next (s.groupReadDone bytes)

/-- PAGE_READ_END (R76). -/
def execPageReadEnd (bytes : List Byte) (s : State) : Host.Outcome State Fault Refusal := .next (s.pageReadDone bytes)

/-- PARK_BOUNDARY (R100). -/
def execParkBoundary (bytes : List Byte) (s : State) : Host.Outcome State Fault Refusal := .next (s.boundary bytes)

/-- RAW_READ_END (R53). -/
def execRawReadEnd (bytes : List Byte) (s : State) : Host.Outcome State Fault Refusal := .next (s.rawReadDone bytes)

/-- ERASE_COMPLETE (R115). -/
def execEraseComplete (s : State) : Host.Outcome State Fault Refusal := .next s.eraseCompletes

/-- PROGRAM_COMPLETE (R183). -/
def execProgramComplete (s : State) : Host.Outcome State Fault Refusal := .next s.programDone

/-- SUSPEND_ACK (R114). -/
def execSuspendAck (finished : Bool) (s : State) : Host.Outcome State Fault Refusal := .next (s.suspendAcknowledged finished)

/-- READ_TIMEOUT (R118). -/
def execReadTimeout (bytes : List Byte) (s : State) : Host.Outcome State Fault Refusal := .next (s.readTimesOut bytes)

/-- PROGRAM_TIMEOUT (R119). -/
def execProgramTimeout (s : State) : Host.Outcome State Fault Refusal := .next s.programTimesOut

/-- ERASE_TIMEOUT (R119). -/
def execEraseTimeout (s : State) : Host.Outcome State Fault Refusal := .next s.eraseTimesOut

/-- SUSPEND_TIMEOUT (R119). -/
def execSuspendTimeout (s : State) : Host.Outcome State Fault Refusal := .next s.suspendTimesOut

/-- RESET_END (R120). -/
def execResetEnd (s : State) : Host.Outcome State Fault Refusal := .next s.resetEnds

end Sys2Proof.Machine
end

