-- ==== Sys2Proof/Machine/LifeEvents.lean ====
section
/-! DEFINITION. The ends of the key engine's SIGCHECKs (2.5), of a row write (11.1) and of a deadline with the fallback
(8.3, 8.4); with the meanings of the rows of the table that name them. -/

namespace Sys2Proof.Machine

/-! ## SIGCHECKs (R29, R30) -/

/-- The certificate SIGCHECK ends: a fail ends the job with CERT_FAIL, a pass starts the manifest SIGCHECK; a dropped job
ends without its second SIGCHECK (R29, R30). -/
def State.certSigcheckEnds (s : State) : State :=
  match s.ke.current with
  | some (j, .certificate) =>
    if j.dropped then (s.jobEnds j none).settle
    else if s.certPasses j then { s with ke := { s.ke with current := some (j, .manifest) } }
    else (s.jobEnds j (some .certSignature)).settle
  | _ => s

/-- The manifest SIGCHECK ends, and with it the job: PASS or MANIFEST_FAIL (R29). -/
def State.manifestSigcheckEnds (s : State) : State :=
  match s.ke.current with
  | some (j, .manifest) => (s.jobEnds j (if j.manifestPasses then none else some .manifestSignature)).settle
  | _ => s

/-! ## Row writes (R189, R191, R193, R194, R197) -/

/-- The command that asked for a row is answered DONE (R191). -/
def State.rowAnswered (s : State) (w : RowWrite) (fields : List Byte) : State :=
  match w.source with
  | some (p, code) => s.commandEnds p code (doneResponse fields)
  | none => s

/-- What the completion of a row does besides the row (R19, R189, R193, R194, R197). -/
def State.rowReported (s : State) (w : RowWrite) : State :=
  match w.row with
  | .config _ => s.partRestart .command none
  | .rootKey _ _ => s
  | .retire _ => s.rowAnswered w []
  | .revocation serial =>
    State.rowAnswered { s with mu := { s.mu with filter := setFilterBit s.mu.filter serial } } w []
  | .floor _ v => s.rowAnswered w (leBytes 2 v)

/-- The running row write completes (R191): the row is WRITTEN; in a part restart nothing else follows (R162), but PORT
STATE goes on to read as the rows will give it (R149). -/
def State.rowWritten (s : State) : State :=
  match s.ots.running with
  | none => s
  | some w =>
    let s := { s with ots := { (s.ots.write w.row) with running := none } }
    if s.loaded then ((s.rowReported w).startRow).takeDeferredFrames else s.showInitialStates.evalPermit

/-! ## Deadlines and the fallback (R156 to R159, R188) -/

/-- A fallback makes a staging window DISCARDED (R159, step 3; R188). -/
def State.discardStaging (s : State) (w : StagingId) : State :=
  let s := if (s.staging w).state = .sealing then s.cancelSeal w else s
  State.postFormatter
    (s.modStaging w (fun x => { x with state := .discarded, reason := .discarded, digests := [] })) .sealDone

/-- A fallback of a tag touches the staging windows of that tag that are OPEN, SEALING, SEALED or SEAL_FAILED (R188). -/
def StagingWindow.fallsBack (w : StagingWindow) (t : Tag) : Bool :=
  w.tag == t && (w.state == .opened || w.state == .sealing || w.state == .sealed || w.state == .sealFailed)

/-- The records of a window are cancelled and its slots discarded (R106). The spec gives the cancellations no order: the model
takes the order of the records' creation, and each released claim serves the WAIT_GROUP list at once, so that a record that
waits may get an entry between two cancellations (DESIGN CHOICE, log entry 11). -/
def State.cancelWindow (s : State) (t : Tag) : State :=
  let s := (s.pb.records.filter (fun r => r.win == .image t)).foldl (fun s r => s.cancelRecord r.win r.page) s
  let s := { s with pb := { s.pb with prefetch := s.pb.prefetch.filter (fun e => e.2.1 != t) } }
  allSlots.foldl (fun s n => if (s.bufferSlot n).key.map Prod.fst = some t then s.discardSlot n else s) s

/-- The fields of a window whose rebuild is taken (R43). -/
def ImageWindow.rebuilt (w : ImageWindow) : ImageWindow :=
  { w with state := .checking, former := w.slot, slot := none, version := 0, serial := 0, pageCount := 0, pageBase := 0,
           groupBase := 0, good := 0, bad := 0, cursor := 0, touched := false, digests := [] }

/-- The window unit takes a rebuild request of an ACCEPTED window (R43), and its cache entries are dropped (R72). -/
def State.rebuild (s : State) (t : Tag) : State :=
  let s := match (s.image t).range with
    | some r => s.clearRange r
    | none => s
  ((s.modImage t ImageWindow.rebuilt).dropEntries (.image t)).evalPermit

/-- The port is held by a fallback (R159, step 2). -/
def State.holdPort (s : State) (p : PortId) : State :=
  let s := s.endFrame p
  let s := s.modLife p (fun l => { l with state := .held, bootSet := none, heldPages := [], deadline := none })
  (s.postBoth p .deadline).evalPermit

/-- The last steps of a fallback: the rebuild and the RECHECK entry, or a fault of the port if the window may not be
rebuilt (R159, steps 5 and 6). -/
def State.finishFallback (s : State) (p : PortId) (t : Tag) : State :=
  if (s.image t).state = .accepted then
    let s := s.rebuild t
    State.walk { s with mu := { s.mu with tagQueue := s.mu.tagQueue ++ [(t, .recheck)] } }
  else if (s.life p).state = .held then s.faultPort p
  else s

/-- A fallback goes ahead (R159). -/
def State.fallback (s : State) (p : PortId) (t : Tag) : State :=
  let s := { s with lc := { s.lc with fallbackUsed := s.lc.fallbackUsed.set t true } }
  let s := s.holdPort p
  let s := (allStaging.filter (fun w => (s.staging w).fallsBack t)).foldl State.discardStaging s
  (s.cancelWindow t).finishFallback p t

/-- The fallback of a tag can go ahead (R158). -/
def State.fallbackPossible (s : State) (t : Tag) : Bool :=
  !s.lc.fallbackUsed[t] && (s.image t).state == .accepted &&
    (match (s.image t).slot with
     | some x => s.slotValid t x.other
     | none => false)

/-- Expiry with action FALLBACK (R158). -/
def State.deadlineFallback (s : State) (p : PortId) : State :=
  match (s.life p).bootTag with
  | some t => if s.fallbackPossible t then s.fallback p t else (s.faultPort p).postBoth p .deadline
  | none => (s.faultPort p).postBoth p .deadline

/-- The action of an expired deadline (R157, R158). -/
def State.deadlineAction (s : State) (p : PortId) : DeadlineAction → State
  | .none => s
  | .notice => s.postBoth p .deadline
  | .system => s.partRestart .deadline (some p)
  | .fallback => (s.deadlineFallback p).settle

/-- The deadline timer of a port expires: it stops, and the action is carried out (R156, R157). A stopped timer does not
expire. -/
def State.deadlineExpires (s : State) (p : PortId) : State :=
  match (s.life p).deadline with
  | none => s
  | some _ =>
    let s := s.modLife p (fun l => { l with deadline := none })
    s.deadlineAction p (((s.portConfig p).map (·.action)).getD .none)

/-! ## Meanings -/

/-- CERT_SIGCHECK_END (R29). -/
def execCertSigcheckEnd (s : State) : Host.Outcome State Fault Refusal := .next s.certSigcheckEnds

/-- MANIFEST_SIGCHECK_END (R29). -/
def execManifestSigcheckEnd (s : State) : Host.Outcome State Fault Refusal := .next s.manifestSigcheckEnds

/-- ROW_WRITE_COMPLETE (R191). -/
def execRowWriteComplete (s : State) : Host.Outcome State Fault Refusal := .next s.rowWritten

/-- DEADLINE_EXPIRY (R157). -/
def execDeadlineExpiry (p : PortId) (s : State) : Host.Outcome State Fault Refusal := .next (s.deadlineExpires p)

end Sys2Proof.Machine
end

