-- ==== Sys2Proof/Machine/Dispatch.lean ====
section
/-! DEFINITION. The dispatch: one arm per row of the table, each one direct call of that row's meaning. -/

namespace Sys2Proof.Machine

/-- The effect of a command or event on everything but the queue. -/
def exec (i : Instr) (s : State) : Host.Outcome State Fault Refusal :=
  match i with
  | .powerOnReset => Sys2Proof.Machine.execPowerOnReset s
  | .otsLoadComplete => Sys2Proof.Machine.execOtsLoadComplete s
  | .directoryReadEnd r => Sys2Proof.Machine.execDirectoryReadEnd r s
  | .probeReadEnd r => Sys2Proof.Machine.execProbeReadEnd r s
  | .manifestReadEnd r => Sys2Proof.Machine.execManifestReadEnd r s
  | .certSigcheckEnd => Sys2Proof.Machine.execCertSigcheckEnd s
  | .manifestSigcheckEnd => Sys2Proof.Machine.execManifestSigcheckEnd s
  | .sealManifestReadEnd r => Sys2Proof.Machine.execSealManifestReadEnd r s
  | .groupReadEnd bytes => Sys2Proof.Machine.execGroupReadEnd bytes s
  | .pageReadEnd bytes => Sys2Proof.Machine.execPageReadEnd bytes s
  | .parkBoundary bytes => Sys2Proof.Machine.execParkBoundary bytes s
  | .rawReadEnd bytes => Sys2Proof.Machine.execRawReadEnd bytes s
  | .eraseComplete => Sys2Proof.Machine.execEraseComplete s
  | .programComplete => Sys2Proof.Machine.execProgramComplete s
  | .suspendAck finished => Sys2Proof.Machine.execSuspendAck finished s
  | .readTimeout bytes => Sys2Proof.Machine.execReadTimeout bytes s
  | .programTimeout => Sys2Proof.Machine.execProgramTimeout s
  | .eraseTimeout => Sys2Proof.Machine.execEraseTimeout s
  | .suspendTimeout => Sys2Proof.Machine.execSuspendTimeout s
  | .resetEnd => Sys2Proof.Machine.execResetEnd s
  | .rowWriteComplete => Sys2Proof.Machine.execRowWriteComplete s
  | .holdoffExpiry p => Sys2Proof.Machine.execHoldoffExpiry p s
  | .deadlineExpiry p => Sys2Proof.Machine.execDeadlineExpiry p s
  | .selectRelease p => Sys2Proof.Machine.execSelectRelease p s
  | .frameRefused p code args => Sys2Proof.Machine.execFrameRefused p code args s
  | .read p offset length => Sys2Proof.Machine.execRead p offset length s
  | .setExt p value => Sys2Proof.Machine.execSetExt p value s
  | .status p => Sys2Proof.Machine.execStatus p s
  | .noticeRead p => Sys2Proof.Machine.execNoticeRead p s
  | .noticeMask p mask => Sys2Proof.Machine.execNoticeMask p mask s
  | .violationRead p => Sys2Proof.Machine.execViolationRead p s
  | .report p => Sys2Proof.Machine.execReport p s
  | .bootDone p => Sys2Proof.Machine.execBootDone p s
  | .reportClear p => Sys2Proof.Machine.execReportClear p s
  | .stageOpen p tag => Sys2Proof.Machine.execStageOpen p tag s
  | .stageErase p window sector => Sys2Proof.Machine.execStageErase p window sector s
  | .stageWrite p window offset data => Sys2Proof.Machine.execStageWrite p window offset data s
  | .sealWindow p window => Sys2Proof.Machine.execSeal p window s
  | .stageClose p window => Sys2Proof.Machine.execStageClose p window s
  | .commit p tag => Sys2Proof.Machine.execCommit p tag s
  | .revoke p serial => Sys2Proof.Machine.execRevoke p serial s
  | .retireRoot p rootIndex => Sys2Proof.Machine.execRetireRoot p rootIndex s
  | .provision p config keys => Sys2Proof.Machine.execProvision p config keys s
  | .restart p => Sys2Proof.Machine.execRestart p s
  | .frameByteReceived p b => Sys2Proof.Machine.execFrameByteReceived p b s
  | .responseByteClockedIn p => Sys2Proof.Machine.execResponseByteClockedIn p s

end Sys2Proof.Machine
end

