-- ==== Sys2Proof/Safety.lean ====
section
/-! DEFINITION. What counts as a safe run, in the terms the statements use: the ready port and its answers, what every
step keeps, and what only ever moves forward. -/

namespace Sys2Proof.Machine

/-! ## A port that takes a frame at once -/

/-- A frame that reaches the port is taken at once: it answers frames, its select carries one, FRAME STATE is IDLE and no
command works in BACKGROUND (R127, R128). -/
def State.ready (s : State) (p : PortId) : Bool :=
  s.answers p && !(s.port p).ignoring && (s.port p).frame == .idle && (s.port p).background.isNone

/-- A port unit that has taken a frame and answers it with a command response (R14, R129). -/
def PortUnit.answered (u : PortUnit) (bytes : List Byte) : PortUnit :=
  { u with selectActive := true, frameBytes := [], frame := .responding, response := bytes, stream := none }

/-- A port unit that has taken a command whose response comes later (R129). -/
def PortUnit.executing (u : PortUnit) (code : Byte) : PortUnit :=
  { u with selectActive := true, frameBytes := [], frame := .executing code }

/-- A port unit after a violation report (R59): an empty record takes it and VIOLATION is posted, a full one counts it. -/
def PortUnit.reported (u : PortUnit) (h : Nat) (kind : ViolationKind) (detail : Nat) : PortUnit :=
  if u.violation.kind = none then
    PortUnit.post h .violation
      { u with violation := { kind := some kind, detail := detail, further := 0, overflow := false } }
  else
    { u with violation := { u.violation with further := min (u.violation.further + 1) 255, overflow := true } }

/-- The state in which a port has taken a command and answers it, with nothing else changed. -/
def State.answering (s : State) (p : PortId) (bytes : List Byte) : State := s.modPort p (fun u => u.answered bytes)

/-- The state in which a port has refused a frame and made a violation report, with nothing else changed (R61). -/
def State.refusing (s : State) (p : PortId) (kind : ViolationKind) (detail : Nat) (c : RefusalCode) : State :=
  s.modPort p (fun u => (u.reported s.holdoffH kind detail).answered (refusedResponse c))

/-- The part takes formatter-only commands from this port: the formatter's, ready, outside factory state (R132). -/
def State.formatterReady (s : State) (p : PortId) : Bool :=
  s.ready p && !s.factory && s.formatterPort == some p

/-- The frame a command of the table stands for, with the port it reaches (1.5). -/
def frameOf : Instr → Option (PortId × Request)
  | .frameRefused p code args => some (p, parseFrame code args)
  | .read p offset length => some (p, .read offset length)
  | .setExt p value => some (p, .setExt value)
  | .status p => some (p, .status)
  | .noticeRead p => some (p, .noticeRead)
  | .noticeMask p mask => some (p, .noticeMask mask)
  | .violationRead p => some (p, .violationRead)
  | .report p => some (p, .report)
  | .bootDone p => some (p, .bootDone)
  | .reportClear p => some (p, .reportClear)
  | .stageOpen p tag => some (p, .stageOpen tag)
  | .stageErase p window sector => some (p, .stageErase window sector)
  | .stageWrite p window offset data => some (p, .stageWrite window offset data)
  | .sealWindow p window => some (p, .sealWindow window)
  | .stageClose p window => some (p, .stageClose window)
  | .commit p tag => some (p, .commit tag)
  | .revoke p serial => some (p, .revoke serial)
  | .retireRoot p rootIndex => some (p, .retireRoot rootIndex)
  | .provision p config keys => some (p, .provision config keys)
  | .restart p => some (p, .restart)
  | .powerOnReset => none
  | .otsLoadComplete => none
  | .directoryReadEnd _ => none
  | .probeReadEnd _ => none
  | .manifestReadEnd _ => none
  | .certSigcheckEnd => none
  | .manifestSigcheckEnd => none
  | .sealManifestReadEnd _ => none
  | .groupReadEnd _ => none
  | .pageReadEnd _ => none
  | .parkBoundary _ => none
  | .rawReadEnd _ => none
  | .eraseComplete => none
  | .programComplete => none
  | .suspendAck _ => none
  | .readTimeout _ => none
  | .programTimeout => none
  | .eraseTimeout => none
  | .suspendTimeout => none
  | .resetEnd => none
  | .rowWriteComplete => none
  | .holdoffExpiry _ => none
  | .deadlineExpiry _ => none
  | .selectRelease _ => none
  | .frameByteReceived _ _ => none
  | .responseByteClockedIn _ => none

/-- No request waits in any class queue (R110). -/
def FlashCtl.noneWaiting (f : FlashCtl) : Bool :=
  f.queues.demand.isEmpty && f.queues.prefetch.isEmpty && f.queues.walker.isEmpty && f.queues.staging.isEmpty
    && f.queues.sweep.isEmpty

/-- No frame is DEFERRED on any port (R128). -/
def State.noneDeferred (s : State) : Bool := allPorts.all (fun p => (s.port p).frame != .deferred)

/-- Nothing waits that the end of a step would start, but what the step itself asks for: no request, no entry of the
prefetch list, no deferred frame, no suspended erase, and a sweep stream that is busy or has no work. -/
def State.calm (s : State) : Bool :=
  s.fc.noneWaiting && s.fc.erase == .none && s.pb.prefetch.isEmpty && s.noneDeferred
    && (s.sw.inFlight != .none || (s.offerOrder.isEmpty && s.sw.job.isNone))

/-- Nothing but the sweep stream would need a page or a group at the end of a step: no entry of the prefetch list, no member
of the WAIT_GROUP list, no READ that waits for the end of another record of its port (R69, R93, R97). -/
def State.noNeeds (s : State) : Prop :=
  s.pb.prefetch = [] ∧ s.iu.waitGroup = [] ∧ ∀ (p : PortId) (t : Tag) (i : Nat), s.serving p ≠ some (.stallOrigin t i)

/-- The tier of R166 an image window stands in; 4 for a window of none of the first three. -/
def State.sweepRank (s : State) (t : Tag) : Nat :=
  if s.inTier1 t then 1 else if s.inTier2 t then 2 else if s.inTier3 t then 3 else 4

/-- A page that a sweep need would get a record for: UNCHECKED, without a record and not present (R98, R167). -/
def State.sweepOpen (s : State) (t : Tag) (i : Nat) : Prop :=
  i < (s.image t).pageCount ∧ s.pageState t i = .unchecked ∧ s.record (.image t) i = none ∧ s.present t i = none

/-- The place of a page in a lap: from the cursor to the last page, then from page 0 (R167). -/
def ImageWindow.lapPlace (w : ImageWindow) (i : Nat) : Nat := if w.cursor ≤ i then i else i + w.pageCount

/-- No window of tiers 1 to 3 yields work (R165). -/
def State.noSweepWork (s : State) : Prop := ∀ (t : Tag) (i : Nat), s.sweepRank t ≤ 3 → ¬ s.sweepOpen t i

/-- An op on the flash port at its start (R111, R113). -/
def FlashRequest.started (r : FlashRequest) (step : Nat) : FlashPort :=
  .op { req := r, delivered := 0, retryUsed := false, step := step }

/-- The command ends the work of the staging or store command `code` of port `p` and answers it (R129, R130): the completion or
the FAULT of its ERASE or PROGRAM (also that of an ERASE aborted while SUSPENDED, by the RESET of a READ, R119), or its row
write. -/
def State.endsWork (s : State) (c : Instr) (p : PortId) (code : Byte) : Prop :=
  (code = 0x12 ∧ ∃ (op : CurrentOp) (r : FlashRequest), s.fc.port = .op op ∧ op.req = r ∧ r.purpose = .erase p
    ∧ ((c = .eraseComplete ∧ s.fc.erase = .erasing r) ∨ (c = .suspendAck true ∧ s.fc.erase = .suspending r)))
  ∨ (code = 0x13 ∧ c = .programComplete
    ∧ ∃ (op : CurrentOp) (data : List Byte), s.fc.port = .op op ∧ op.req.purpose = .program p data)
  ∨ (code = 0x12 ∧ c = .resetEnd
    ∧ ∃ (r : FlashRequest) (bySuspend : Bool), s.fc.port = .reset (.failErase r bySuspend) ∧ r.purpose = .erase p)
  ∨ (code = 0x12 ∧ c = .resetEnd
    ∧ ∃ (op : CurrentOp) (r : FlashRequest), s.fc.port = .reset (.retryRead op) ∧ (∀ q, op.req.purpose ≠ .raw q)
      ∧ s.fc.erase = .suspended r ∧ r.purpose = .erase p)
  ∨ (code = 0x13 ∧ c = .resetEnd
    ∧ ∃ (r : FlashRequest) (data : List Byte), s.fc.port = .reset (.failProgram r) ∧ r.purpose = .program p data)
  ∨ (c = .rowWriteComplete ∧ s.loaded = true
    ∧ ∃ w : RowWrite, s.ots.running = some w ∧ w.source = some (p, code)
      ∧ (∀ config, w.row ≠ .config config) ∧ (∀ r key, w.row ≠ .rootKey r key))

/-- The frame under way on a port has ended (R127): one not yet taken is discarded, a command goes on in BACKGROUND or loses the
rest of its response, and a READ is abandoned: the port is in no waiter set, its waiting RAW read is withdrawn and its
running one loses its requester (R57, R105, R112). -/
def State.frameEnded (s u : State) (p : PortId) : Prop :=
  (u.port p).frame = .idle
  ∧ ((s.port p).frame = .receiving ∨ (s.port p).frame = .deferred →
      (u.port p).frameBytes = [] ∧ (u.port p).background = (s.port p).background)
  ∧ (∀ code, (s.port p).frame = .executing code → (u.port p).background = some code)
  ∧ ((s.port p).frame = .responding →
      (u.port p).response = [] ∧ (u.port p).stream = none ∧ (u.port p).background = (s.port p).background
      ∧ ((s.port p).stream.isSome = true → ∀ r ∈ u.pb.records, p ∉ r.waiters)
      ∧ (∀ st ready faulted, (s.port p).stream = some st → st.serve = .raw ready faulted →
          (∀ q ∈ u.fc.queues.all, q.live = true → q.purpose ≠ .raw p)
          ∧ ∀ c, s.fc.port = .op c → c.req.purpose = .raw p → u.fc.port = .op { c with req := { c.req with live := false } }))

/-- Ports and fills keep to their slots: a port waits for pages of its own windows, behind a record it is origin of (R50, R93);
it is served from a VALID slot with a page of its own windows (R50, R83); and a slot named as a destination is FILLING, which
no port pins (R83, R99). -/
def State.StreamsOwn (s : State) : Prop :=
  (∀ (p : PortId) (t : Tag) (i : Nat), s.serving p = some (.stallOrigin t i) → (s.image t).owner = some p)
  ∧ (∀ (p : PortId) (n : Fin 64), s.serving p = some (.slot n) →
      (s.bufferSlot n).state = .valid
        ∧ ∃ (t : Tag) (i : Nat), (s.bufferSlot n).key = some (t, i) ∧ (s.image t).owner = some p)
  ∧ (∀ r ∈ s.pb.records, ∀ n : Fin 64, r.dest = .slot (some n) →
      (s.bufferSlot n).state = .filling ∧ (s.bufferSlot n).pins = 0)

/-- The program page that a PROGRAM under way may have left in part written (R119, R125). -/
def State.portSpans (s : State) : List (Nat × Nat) :=
  match s.fc.port with
  | .op c =>
    (match c.req.purpose with
     | .program _ _ => [(c.req.addr / 256 * 256, 256)]
     | _ => [])
  | .reset (.failProgram r) => [(r.addr / 256 * 256, 256)]
  | _ => []

/-- The sector that an ERASE under way may have left in part erased (R119, R125). -/
def State.eraseSpans (s : State) : List (Nat × Nat) :=
  match s.fc.erase with
  | .erasing r => [(r.addr, 65536)]
  | .suspending r => [(r.addr, 65536)]
  | .suspended r => [(r.addr, 65536)]
  | .none => []

/-- The spans of flash that the ops under way may have left in part changed. -/
def State.spansUnderWay (s : State) : List (Nat × Nat) := s.portSpans ++ s.eraseSpans

/-- Every flash byte outside these spans reads the same in both states. -/
def State.sameFlashOutside (s t : State) (spans : List (Nat × Nat)) : Prop :=
  ∀ a : Nat, (∀ sp ∈ spans, a < sp.1 ∨ sp.1 + sp.2 ≤ a) → Memory.read t.flash a = Memory.read s.flash a

/-! ## Tests in an order -/

/-- The answer of the first condition that holds, in their order; NONE where none holds. -/
def FirstHolding : List (Prop × Reason) → Reason → Prop
  | [], r => r = .none
  | (holds, answer) :: rest, r => (holds → r = answer) ∧ (¬ holds → FirstHolding rest r)

/-- Checks 1 to 8 of a candidate on the manifest bytes `b` (1.4), for slot `x` of tag `t`, in their order (R25): the ten
conditions of R8, the three of R9 with the slot's SLOT SIZE, identity, floor, root, revocation (R20), and the map space check of
R27, which is made for a walker candidate, whose entry kind is `walk`. -/
def State.candidateConditions (s : State) (b : List Byte) (t : Tag) (x : SlotId) (walk : Option EntryKind) :
    List (Prop × Reason) :=
  [(fieldAt b 0 4 ≠ 0x4D474654, .format),
   (fieldAt b 4 1 ≠ 1, .format),
   (7 < fieldAt b 5 1, .format),
   (fieldAt b 6 1 ≠ 0x41 ∧ fieldAt b 6 1 ≠ 0x42, .format),
   (fieldAt b 8 2 = 0, .format),
   (fieldAt b 10 2 = 0 ∨ 8192 < fieldAt b 10 2, .format),
   (fieldAt b 7 1 = 0 ∨ 12 < fieldAt b 7 1 ∨ fieldAt b 10 2 < fieldAt b 7 1, .format),
   (fieldAt b 16 2 ≠ 1608 + 32 * ((fieldAt b 10 2 + 63) / 64), .format),
   (fieldAt b 64 4 = 0, .format),
   (3 < fieldAt b 68 1, .format),
   (fieldAt b 14 2 < 2 + ((fieldAt b 10 2 + 63) / 64 + 1) / 2, .layout),
   ((s.directory t).slotSize * 16 < fieldAt b 14 2 + fieldAt b 10 2, .layout),
   (65536 < fieldAt b 12 2 + fieldAt b 10 2, .layout),
   (fieldAt b 5 1 ≠ t.val, .tagMismatch),
   ((fieldAt b 6 1 = 0x41 ∧ x = .b) ∨ (fieldAt b 6 1 = 0x42 ∧ x = .a), .slotMismatch),
   (fieldAt b 12 2 ≠ (s.cfg.map (fun c => (c.tags[t]).loadBase)).getD 0, .loadMismatch),
   (fieldAt b 8 2 < ((s.ots.floors[t]).getLast?).getD 0, .belowFloor),
   (¬ ∃ r : Fin 4, r.val = fieldAt b 68 1 ∧ s.ots.rootKeys[r] ≠ none ∧ s.ots.retired[r] = false, .rootUnusable),
   (s.mu.filter.getLsbD ((fieldAt b 64 1 + fieldAt b 65 1 + fieldAt b 66 1 + fieldAt b 67 1) % 64) = true
      ∧ BitVec.ofNat 32 (fieldAt b 64 4) ∈ s.ots.revoked, .certRevoked),
   ((walk = some .first ∨ (walk = some .recheck ∧ ∀ r, (s.image t).range = some r → r.length < fieldAt b 10 2))
      ∧ 24576 - s.wu.mapUsed < fieldAt b 10 2, .mapFull)]

/-- A usable directory is judged entry by entry, slot A before slot B (R3, R4): entry k is tag g's where it is the first that
names it. A tag without one has NO_SLOT twice. A slot is NO_SLOT exactly where its base is 0xFFFF; it is VALID exactly where
besides SLOT SIZE is 1 to 512, the base is not 0, the slot ends at or below FLASH SECTORS, and it shares no sector with a slot
judged before it that is VALID; else it is LAYOUT. -/
def DirectoryJudged (sectors : Nat) (bytes : List Byte) (view : Vector DirectoryRecord 8) : Prop :=
  ∀ isEntry : Nat → Tag → Prop,
    (∀ k g, isEntry k g ↔ k < fieldAt bytes 4 1 ∧ fieldAt bytes (8 + 8 * k) 1 = g.val
      ∧ ∀ j, j < k → fieldAt bytes (8 + 8 * j) 1 ≠ g.val) →
    (∀ g : Tag, (∀ k, ¬ isEntry k g) → (view[g]).reasonA = .noSlot ∧ (view[g]).reasonB = .noSlot)
    ∧ (∀ (k : Nat) (g : Tag) (x : SlotId) (base size : Nat), isEntry k g →
        base = (view[g]).base x → size = (view[g]).slotSize →
        size = fieldAt bytes (8 + 8 * k + 6) 2
        ∧ (x = .a → base = fieldAt bytes (8 + 8 * k + 2) 2) ∧ (x = .b → base = fieldAt bytes (8 + 8 * k + 4) 2)
        ∧ ((view[g]).reason x = .noSlot ↔ base = 0xFFFF)
        ∧ ((view[g]).reason x = .none ↔ base ≠ 0xFFFF ∧ 0 < size ∧ size ≤ 512 ∧ base ≠ 0 ∧ base + size ≤ sectors
            ∧ ∀ (j : Nat) (h : Tag) (y : SlotId), isEntry j h → (j < k ∨ (j = k ∧ y = .a ∧ x = .b)) →
                (view[h]).reason y = .none →
                (view[h]).base y + (view[h]).slotSize ≤ base ∨ base + size ≤ (view[h]).base y)
        ∧ ((view[g]).reason x = .noSlot ∨ (view[g]).reason x = .none ∨ (view[g]).reason x = .layout))

/-- The eight conditions of R192 on the bytes of a config record (Table 1-6). -/
def ConfigAdmitted (bytes : List Byte) : Prop :=
  ∀ (role : PortId → Nat) (bound flags loadBase spanEnd : Tag → Nat),
    (∀ p, role p = fieldAt bytes (4 * p.val) 1) → (∀ t, bound t = fieldAt bytes (16 + 4 * t.val) 1) →
    (∀ t, flags t = fieldAt bytes (16 + 4 * t.val + 1) 1) → (∀ t, loadBase t = fieldAt bytes (16 + 4 * t.val + 2) 2) →
    (∀ t, spanEnd t = min (loadBase t + 8192) 65536) →
    ((∀ p, role p ≤ 3 ∨ role p = 0xFF) ∧ ∃ p, role p = 0 ∧ ∀ q, role q = 0 → q = p)
    ∧ (∀ p : PortId, fieldAt bytes (4 * p.val + 2) 1 ≤ 3 ∧ fieldAt bytes (4 * p.val + 3) 1 ≤ 1)
    ∧ (∀ t, bound t = 0xFF ∨ ∃ p : PortId, bound t = p.val ∧ role p ≠ 0xFF)
    ∧ (∀ p : PortId, role p ≠ 0xFF →
        ∃ t, bound t = p.val ∧ flags t % 2 = 1 ∧ ∀ u, bound u = p.val → flags u % 2 = 1 → u = t)
    ∧ (∀ t u, t ≠ u → bound t = bound u → bound t ≠ 0xFF → spanEnd t ≤ loadBase u ∨ spanEnd u ≤ loadBase t)
    ∧ (∀ (t : Tag) (p : PortId), bound t = p.val → role p = 0 → loadBase t + 8192 ≤ 49152)
    ∧ (fieldAt bytes 48 1 ≤ 31 ∧ fieldAt bytes 49 1 ≤ 7 ∧ fieldAt bytes 50 1 ≤ 7)
    ∧ (256 ≤ fieldAt bytes 52 2 ∧ fieldAt bytes 52 2 ≤ 2048)

/-- A record holds these fields (Tables 1-3 and 1-7), each an offset, a size and a value, its least significant byte first. -/
def HoldsFields (bytes : List Byte) (fields : List (Nat × Nat × Nat)) : Prop :=
  ∀ f ∈ fields, slice bytes f.1 f.2.1 = leBytes f.2.1 f.2.2

/-! ## What every step keeps -/

/-- The flash is in canonical form. -/
def State.FlashCanonical (s : State) : Prop := Memory.wf s.flash = true

/-- The page state map is in canonical form. -/
def State.MapCanonical (s : State) : Prop := Sparse.wf PageState.unchecked s.wu.pageMap = true

/-- PRINT_EN is asserted while the permit condition holds, and is low otherwise (R176). -/
def State.PermitExact (s : State) : Prop := s.pu.printEn = s.permitCondition

/-- Bit 7 of every event set and of every mask is 0 (Table 1-2). -/
def State.EventBitsClear (s : State) : Prop :=
  ∀ p : PortId, (s.port p).events.getLsbD 7 = false ∧ (s.port p).mask.getLsbD 7 = false

/-- The LRU list holds, once each, exactly the slots that may be evicted (R84): those VALID with PIN COUNT 0, neither held for
a port nor DISCARD-PENDING. A held slot is VALID (R86), and a DISCARD-PENDING one is VALID and pinned (R87). -/
def State.LruExact (s : State) : Prop :=
  s.pb.lru.Nodup
  ∧ (∀ n : Fin 64, n ∈ s.pb.lru ↔
      (s.bufferSlot n).state = .valid ∧ (s.bufferSlot n).pins = 0 ∧ (s.bufferSlot n).heldFor = none
        ∧ (s.bufferSlot n).discardPending = false)
  ∧ (∀ n : Fin 64, (s.bufferSlot n).heldFor.isSome = true →
      (s.bufferSlot n).state = .valid ∧ (s.bufferSlot n).discardPending = false)
  ∧ (∀ n : Fin 64, (s.bufferSlot n).discardPending = true →
      (s.bufferSlot n).state = .valid ∧ 0 < (s.bufferSlot n).pins)

/-- D_MAX of the config row, as the flash controller takes it; 0 while the row is BLANK (R123). -/
def Ots.dTop (o : Ots) : Nat := (o.config.map (fun b => (configOfBytes b).dTop)).getD 0

/-- The config record in force is the config row's, and the clock step lies within D_MIN..D_MAX of it (R123). -/
def State.ClockInRange (s : State) : Prop :=
  s.cfg = (if s.loaded then s.ots.config.map configOfBytes else none)
  ∧ s.fc.step ≤ s.ots.dTop
  ∧ (∀ c, s.cfg = some c → c.dMin ≤ s.fc.step)

/-! ## What only moves forward -/

/-- From one content of the one-time store to a later one: no WRITTEN row changes or becomes BLANK (R191). -/
def Ots.Forward (a b : Ots) : Prop :=
  (∀ bytes, a.config = some bytes → b.config = some bytes)
  ∧ (∀ (r : Fin 4) (key : Key), a.rootKeys[r] = some key → b.rootKeys[r] = some key)
  ∧ (∀ r : Fin 4, a.retired[r] = true → b.retired[r] = true)
  ∧ a.revoked <+: b.revoked
  ∧ (∀ t : Tag, a.floors[t] <+: b.floors[t])

end Sys2Proof.Machine
end

