-- ==== Sys2Proof/WellFormed.lean ====
section
/-! DEFINITION. Which commands and events are well formed: the operand lengths the flash ops and the frames of
chapter 1 allow. `exec` is total and does not need them; a command that breaks one names no frame or delivery
that can reach the part. -/

namespace Sys2Proof

/-- A READ delivers at most the bytes it asks for (R109). -/
def ReadEnd.wf (limit : Nat) : ReadEnd → Bool
  | .complete bytes => bytes.length ≤ limit
  | .fault => true

/-- The operand lengths that R12, R100, R109 and R183 allow. -/
def Instr.wf : Instr → Bool
  | .directoryReadEnd r => r.wf 2048
  | .probeReadEnd r => r.wf 2048
  | .manifestReadEnd r => r.wf 8192
  | .sealManifestReadEnd r => r.wf 8192
  | .groupReadEnd bytes => bytes.length ≤ 2048
  | .pageReadEnd bytes => bytes.length ≤ 4096
  | .parkBoundary bytes => bytes.length ≤ 512
  | .rawReadEnd bytes => bytes.length ≤ 8192
  | .readTimeout bytes => bytes.length < 8192
  | .frameRefused _ _ args => args.length < 65536
  | .read _ _ length => 1 ≤ length.toNat && length.toNat ≤ 8192
  | .stageWrite _ _ _ data => 1 ≤ data.length && data.length ≤ 256
  | .provision _ config keys =>
      config.length == 56 && (1 ≤ keys.length && keys.length ≤ 4) && keys.all (fun k => k.length == 512)
  | .powerOnReset => true
  | .otsLoadComplete => true
  | .certSigcheckEnd => true
  | .manifestSigcheckEnd => true
  | .eraseComplete => true
  | .programComplete => true
  | .suspendAck _ => true
  | .programTimeout => true
  | .eraseTimeout => true
  | .suspendTimeout => true
  | .resetEnd => true
  | .rowWriteComplete => true
  | .holdoffExpiry _ => true
  | .deadlineExpiry _ => true
  | .selectRelease _ => true
  | .setExt _ _ => true
  | .status _ => true
  | .noticeRead _ => true
  | .noticeMask _ _ => true
  | .violationRead _ => true
  | .report _ => true
  | .bootDone _ => true
  | .reportClear _ => true
  | .stageOpen _ _ => true
  | .stageErase _ _ _ => true
  | .sealWindow _ _ => true
  | .stageClose _ _ => true
  | .commit _ _ => true
  | .revoke _ _ => true
  | .retireRoot _ _ => true
  | .restart _ => true
  | .frameByteReceived _ _ => true
  | .responseByteClockedIn _ => true

end Sys2Proof
end

