-- ==== Sys2Proof/Certificates/Slice0/Obligations.lean ====
section
/-! DEFINITION. The statements for the provers, from the numbered rules of spec/. -/

open Sys2Proof Sys2Proof.Machine

/-! ## The machine -/

/-- One step takes the command at the front of the queue and is `exec` of it on the state without it; on an empty queue
the part idles (the model's choice: log entry 8). -/
def Obligations.StepTakesFrontCommand : Prop :=
  ∀ (c : Instr) (rest : List Instr) (s : State),
    step { s with pending := c :: rest } = exec c { s with pending := rest }
    ∧ step { s with pending := [] } = .next { s with pending := [] }

/-- Every command and event of the table completes in every state, and none of them touches the queue of the commands
that wait behind it: the part has no fault of its own and refuses no command of the table. That the end of an op or a
timer that is not under way completes too, and without effect, is the model's choice (log entry 7), and so is the queue
(log entry 8). -/
def Obligations.EveryCommandCompletes : Prop :=
  ∀ (c : Instr) (s : State), ∃ t, exec c s = .next t ∧ t.pending = s.pending

/-- Every step keeps the flash and the page state map in canonical form: addresses rising, no cell that holds the erased
byte, no entry that is UNCHECKED; and bit 7 of every event set and every event mask at 0 (Table 1-2). -/
def Obligations.StepKeepsCanonicalForms : Prop :=
  ∀ s t : State, step s = .next t →
    (s.FlashCanonical → t.FlashCanonical) ∧ (s.MapCanonical → t.MapCanonical) ∧ (s.EventBitsClear → t.EventBitsClear)

/-- What changes the two stores (R109, R115, R119, R125, R191). Every byte of the flash reads the same after every command and
event but the end of a PROGRAM or ERASE, the acknowledgement of a SUSPEND, the end of a RESET, and a step that resets the
part. The rows of the one-time store change at the completion of a row write alone, and at no reset. -/
def Obligations.StoresChangeByTheirOpsAlone : Prop :=
  ∀ (c : Instr) (s t : State), exec c s = .next t →
    (t.loaded = true → c ≠ .programComplete → c ≠ .eraseComplete → (∀ finished, c ≠ .suspendAck finished) → c ≠ .resetEnd →
        c ≠ .directoryReadEnd .fault → c ≠ .probeReadEnd .fault → c ≠ .manifestReadEnd .fault →
        c ≠ .sealManifestReadEnd .fault →
      ∀ a, Memory.read t.flash a = Memory.read s.flash a)
    ∧ (c ≠ .rowWriteComplete →
      t.ots.config = s.ots.config ∧ t.ots.rootKeys = s.ots.rootKeys ∧ t.ots.retired = s.ots.retired
        ∧ t.ots.revoked = s.ots.revoked ∧ t.ots.floors = s.ots.floors)

/-- Every step keeps PRINT_EN equal to the permit condition of R176: no command or event of the table leaves it high when a
window, a port state or the latch has taken the condition away, or low when the condition has come to hold. The condition:
the latch is clear, a print-required tag is bound, and each print-required window is ACCEPTED with GOOD COUNT equal to PAGE
COUNT and its owner CONFIRMED. Where a command or event changes PRINT_EN and leaves the rows loaded, so that it is no reset
(R179), every port RUNNING or CONFIRMED before and after it has a PERMIT event pending; no frame is DEFERRED, since a
deferred NOTICE-READ may empty a set again in the same step. -/
def Obligations.StepKeepsPermitExact : Prop :=
  (∀ s t : State, s.PermitExact → step s = .next t → t.PermitExact)
  ∧ (∀ s : State, s.permitCondition = true ↔
      s.pu.latch = false
      ∧ (∃ (c : ConfigRecord) (g : Tag), s.cfg = some c ∧ (c.tags[g]).printRequired = true ∧ (c.tags[g]).bound ≠ none)
      ∧ ∀ g : Tag, (s.image g).printRequired = true →
          (s.image g).state = .accepted ∧ (s.image g).good = (s.image g).pageCount
          ∧ ∃ p, (s.image g).owner = some p ∧ (s.life p).state = .confirmed)
  ∧ (∀ (c : Instr) (s t : State) (p : PortId), exec c s = .next t → s.noneDeferred = true → t.loaded = true →
      t.pu.printEn ≠ s.pu.printEn → ((s.life p).state = .running ∨ (s.life p).state = .confirmed) →
      ((t.life p).state = .running ∨ (t.life p).state = .confirmed) → (t.port p).events.getLsbD 0 = true)

/-- The clock ratchet (R123). Every step keeps the flash clock step within D_MIN..D_MAX of the config row. The step does not
decrease but at a power-on reset; the load that follows one is left out where it does not find the step at 0: that it
finds it there is the model's choice (log entry 15). -/
def Obligations.ClockRatchetKept : Prop :=
  (∀ s t : State, s.ClockInRange → step s = .next t → t.ClockInRange)
  ∧ ∀ (c : Instr) (s t : State), exec c s = .next t → c ≠ .powerOnReset →
    (c = .otsLoadComplete → s.loaded = true ∨ s.lc.cause ≠ .powerOn ∨ s.fc.step = 0) →
    s.fc.step ≤ t.fc.step

/-- No step blanks or changes a WRITTEN row of the one-time store: the config row, the root keys, the retirements, the
revoked serials and the floors only ever gain rows (R191). -/
def Obligations.StoreMovesForward : Prop :=
  ∀ s t : State, step s = .next t → Ots.Forward s.ots t.ots

/-- The permit latch, once set, is set after every step that does not leave the part with its rows unloaded, as a reset of
the part does (R178). -/
def Obligations.LatchStaysUntilReset : Prop :=
  ∀ s t : State, step s = .next t → s.pu.latch = true → t.pu.latch = true ∨ t.loaded = false

/-- Every step keeps the LRU list exact (R84): it holds, once each, the slots that are VALID with PIN COUNT 0, neither held
for a port nor DISCARD-PENDING, and no others, so that a pinned or held slot is never evicted (R85). A held slot is VALID
(R86), and a DISCARD-PENDING one is VALID and pinned (R87). -/
def Obligations.StepKeepsLruExact : Prop := ∀ s t : State, s.LruExact → step s = .next t → t.LruExact

/-- The state right after reset meets what every step keeps. -/
def Obligations.ResetMeetsInvariants : Prop :=
  State.reset.FlashCanonical ∧ State.reset.MapCanonical ∧ State.reset.PermitExact ∧ State.reset.EventBitsClear
    ∧ State.reset.ClockInRange ∧ State.reset.LruExact

/-! ## Frames (1.5, 7.1, 7.2) -/

/-- The bytes of every well-formed frame are read back as that frame, when they have all arrived and not before (R12,
R128). A whole frame and its bytes received one after the other have the same effect on a port that waits for a frame:
that a row of the table stands for a whole frame is the model's choice (log entry 9). -/
def Obligations.FrameBytesSpellFrame : Prop :=
  (∀ r : Request, r.wellFormed = true →
    requestOf r.bytes = r ∧ frameComplete r.bytes = true
    ∧ ∀ n, n < r.bytes.length → frameComplete (r.bytes.take n) = false)
  ∧ (∀ (c : Instr) (p : PortId) (r : Request) (s : State),
    frameOf c = some (p, r) → requestOf r.bytes = r → r.args.length < 65536 →
    s.answers p = true → (s.port p).ignoring = false → (s.port p).frame = .idle → (s.port p).frameBytes = [] →
    exec c s = .next (r.bytes.foldl (fun u b => u.receiveByte p b) s)
    ∧ ∀ (b : Byte) (u : State), exec (.frameByteReceived p b) u = .next (u.receiveByte p b))

/-- The tests of R132 at the take of a frame. Test 1: a frame whose code and arguments no well-formed request has is
refused with FRAME from any port, makes no violation report and changes nothing but the port's answer. Test 2: a
well-formed formatter-only frame from another port than the formatter's is refused with NOT_PERMITTED and makes a
violation report of kind COMMAND with its code; nothing else changes (R61). Test 3: in factory state every well-formed
frame outside READ, STATUS, REPORT, NOTICE-READ, NOTICE-MASK and PROVISION is refused with STATE and makes no violation
report (R134). -/
def Obligations.FrameTestsOfTake : Prop :=
  (∀ (s : State) (p : PortId) (code : Byte) (args : List Byte), s.ready p = true →
    (∀ r : Request, r.wellFormed = true → r.code = code → r.args ≠ args) →
    exec (.frameRefused p code args) s = .next (s.answering p (refusedResponse .frame)))
  ∧ (∀ (c : Instr) (p : PortId) (r : Request) (s : State),
    frameOf c = some (p, r) → r.wellFormed = true → s.ready p = true →
    (r.formatterOnly = true → s.formatterPort ≠ some p →
      exec c s = .next (s.refusing p .command r.code.toNat .notPermitted))
    ∧ (s.factory = true → (r.formatterOnly = true → s.formatterPort = some p) →
      (∀ (offset : BitVec 24) (length : BitVec 16) (mask : Byte) (config : List Byte) (keys : List Key),
        r ≠ .read offset length ∧ r ≠ .status ∧ r ≠ .report ∧ r ≠ .noticeRead ∧ r ≠ .noticeMask mask
          ∧ r ≠ .provision config keys) →
      exec c s = .next (s.answering p (refusedResponse .state))))

/-- One byte of a frame (R127, R128). A port that gives no responses discards it. A frame that is not complete goes on
RECEIVING with the byte. A frame completed behind a BACKGROUND command is DEFERRED. The work of a command in BACKGROUND ends as
if its response were being sent, and BACKGROUND returns to none (R130); a DEFERRED frame is then taken, as its own row does
it (R128): that it is taken after the pick that closes the same step is the model's order (log entry 11). -/
def Obligations.FrameByteCollected : Prop :=
  (∀ (s : State) (p : PortId) (b : Byte),
    (s.answers p = false →
      exec (.frameByteReceived p b) s = .next (s.modPort p (fun u => { u with selectActive := true })))
    ∧ (s.answers p = true → (s.port p).ignoring = false → ((s.port p).frame = .idle ∨ (s.port p).frame = .receiving) →
        frameComplete ((s.port p).frameBytes ++ [b]) = false →
        exec (.frameByteReceived p b) s = .next (s.modPort p (fun u =>
          { u with selectActive := true, frame := .receiving, frameBytes := u.frameBytes ++ [b] })))
    ∧ (s.answers p = true → (s.port p).ignoring = false → ((s.port p).frame = .idle ∨ (s.port p).frame = .receiving) →
        frameComplete ((s.port p).frameBytes ++ [b]) = true → (s.port p).background.isSome = true →
        exec (.frameByteReceived p b) s = .next (s.modPort p (fun u =>
          { u with selectActive := true, frame := .deferred, frameBytes := u.frameBytes ++ [b] }))))
  ∧ (∀ (s : State) (p : PortId) (c : Instr) (code : Byte), s.endsWork c p code → (s.port p).background = some code →
    (s.port p).frame ≠ .executing code → (∀ q, q ≠ p → (s.port q).frame ≠ .deferred) →
    ((s.port p).frame ≠ .deferred →
      ∃ t t', exec c s = .next t
        ∧ t.port p = { s.port p with background := none, events := (t.port p).events, holdoff := (t.port p).holdoff }
        ∧ exec c (s.modPort p (fun u => { u with frame := .executing code })) = .next t'
        ∧ { t with ports := t'.ports } = t' ∧ (∀ q, q ≠ p → t.port q = t'.port q))
    ∧ (∀ (d : Instr) (r : Request), (s.port p).frame = .deferred → s.answers p = true → (s.port p).ignoring = false →
        (s.port p).selectActive = true → frameOf d = some (p, r) → requestOf (s.port p).frameBytes = r →
      ∃ t, exec c (s.modPort p (fun u => { u with frame := .idle, frameBytes := [] })) = .next t
        ∧ t.port p = { s.port p with frame := .idle, frameBytes := [], background := none,
                                     events := (t.port p).events, holdoff := (t.port p).holdoff }
        ∧ exec c s = exec d t))

/-- Select becomes inactive (R128, R130). A frame not yet taken is discarded; a command under way goes on in BACKGROUND; a
command's remaining response is dropped; a READ is abandoned: the port leaves every waiter set and drops its pin, its RAW
read still waiting is withdrawn, and a running one runs on for no requester (R57, R112). -/
def Obligations.SelectReleaseEndsFrame : Prop :=
  ∀ (s : State) (p : PortId),
    ((s.port p).frame = .idle →
      exec (.selectRelease p) s = .next (s.modPort p (fun u => { u with selectActive := false, ignoring := false })))
    ∧ ((s.port p).frame = .receiving ∨ (s.port p).frame = .deferred →
      exec (.selectRelease p) s = .next (s.modPort p (fun u =>
        { u with selectActive := false, ignoring := false, frame := .idle, frameBytes := [] })))
    ∧ (∀ code, (s.port p).frame = .executing code →
      exec (.selectRelease p) s = .next (s.modPort p (fun u =>
        { u with selectActive := false, ignoring := false, frame := .idle, background := some code })))
    ∧ ((s.port p).frame = .responding → (s.port p).stream = none →
      exec (.selectRelease p) s = .next (s.modPort p (fun u =>
        { u with selectActive := false, ignoring := false, frame := .idle, response := [] })))
    ∧ (∀ st, (s.port p).frame = .responding → (s.port p).stream = some st →
      ∃ t, exec (.selectRelease p) s = .next t
        ∧ t.port p = { s.port p with selectActive := false, ignoring := false, frame := .idle, response := [],
                                     stream := none }
        ∧ (∀ q, q ≠ p → t.port q = s.port q)
        ∧ (∀ r ∈ t.pb.records, p ∉ r.waiters)
        ∧ (∀ n, st.serve = .slot n → (t.bufferSlot n).pins = (s.bufferSlot n).pins - 1)
        ∧ (∀ ready faulted, st.serve = .raw ready faulted →
            (∀ c q, q ∈ t.fc.queues.get c ↔ q ∈ s.fc.queues.get c ∧ ¬ (q.live = true ∧ q.purpose = .raw p))
            ∧ (∀ c, s.fc.port = .op c → c.req.purpose = .raw p →
                t.fc.port = .op { c with req := { c.req with live := false } })
            ∧ (∀ c, s.fc.port = .op c → c.req.purpose ≠ .raw p → t.fc.port = s.fc.port))
        ∧ t.flash = s.flash ∧ t.ots = s.ots ∧ t.wu = s.wu ∧ t.lc = s.lc ∧ t.mu = s.mu)

/-- The bytes a controller clocks in outside a READ (R127, R129): a port that gives no responses reads 0xFF; a command's
response is passed byte by byte, and every byte after its end reads 0xFF and has no effect. -/
def Obligations.ResponseBytePassed : Prop :=
  ∀ (s : State) (p : PortId),
    (s.answers p = false →
      exec (.responseByteClockedIn p) s = .next (s.modPort p (fun u => { u with selectActive := true, out := 0xFF })))
    ∧ (∀ b rest, s.answers p = true → (s.port p).frame = .responding → (s.port p).stream = none →
        (s.port p).response = b :: rest →
        exec (.responseByteClockedIn p) s
          = .next (s.modPort p (fun u => { u with selectActive := true, out := b, response := rest })))
    ∧ (s.answers p = true → (s.port p).frame = .responding → (s.port p).stream = none → (s.port p).response = [] →
        exec (.responseByteClockedIn p) s
          = .next (s.modPort p (fun u => { u with selectActive := true, out := 0xFF })))

/-- The bytes of a READ (R13, R45, R50, R53, R57, R60, R83). A byte of a pinned slot is the byte at its place in the page,
sets TOUCHED and leaves the worst result. A RAW byte is passed as the flash delivers it: one that is ready, or the one
that arrives while the RAW READ runs, with the content of its flash location (how it comes: log entry 14; at or above the flash's
own capacity, which R48 leaves open, the map's cell of that address: the model's choice, log entry 27). A byte
answered WITHHELD, OUTSIDE or FAULT reads 0xFF; the first WITHHELD and the first OUTSIDE one of the READ make a
violation report with its logical address, later ones none. At the last byte of a page, or of the answered or RAW
bytes of a run, a pin is released, and the next page is looked up: none of the port's windows OUTSIDE, a present page
pinned. After the last data byte comes the status
byte, the worst result. That a byte clocked in while none is ready has no effect is the model's choice (log entry
12). -/
def Obligations.ReadBytePassed : Prop :=
  ∀ (s : State) (p : PortId) (st : ReadStream),
    s.answers p = true → (s.port p).frame = .responding → (s.port p).stream = some st →
    (∀ n t i, st.passed < st.length → st.passed + 1 ≠ st.stopAt → st.serve = .slot n →
      (s.bufferSlot n).key = some (t, i) →
      exec (.responseByteClockedIn p) s
        = .next ((s.modImage t (fun w => { w with touched := true })).modPort p (fun u =>
            { u with selectActive := true
                     out := (s.bufferSlot n).data.getD ((st.start + st.passed) % 4096) 0xFF
                     stream := some { st with passed := st.passed + 1 } })))
    ∧ (st.passed < st.length → st.passed + 1 ≠ st.stopAt → st.serve = .answer .withheld → st.reportedWithheld = false →
      exec (.responseByteClockedIn p) s
        = .next (s.modPort p (fun u =>
            { (u.reported s.holdoffH .withheld ((st.start + st.passed) % 268435456)) with
                selectActive := true
                out := 0xFF
                worst := if u.worst = .outside ∨ u.worst = .fault then u.worst else .withheld
                stream := some { st with passed := st.passed + 1, reportedWithheld := true } })))
    ∧ (st.passed < st.length → st.passed + 1 ≠ st.stopAt → st.serve = .answer .outside → st.reportedOutside = false →
      exec (.responseByteClockedIn p) s
        = .next (s.modPort p (fun u =>
            { (u.reported s.holdoffH .outside ((st.start + st.passed) % 268435456)) with
                selectActive := true
                out := 0xFF
                worst := if u.worst = .fault then u.worst else .outside
                stream := some { st with passed := st.passed + 1, reportedOutside := true } })))
    ∧ (∀ r, st.passed < st.length → st.passed + 1 ≠ st.stopAt →
        (st.serve = .answer r ∨ (st.serve = .raw [] true ∧ r = .fault)) →
        ((r = .withheld ∧ st.reportedWithheld = true) ∨ (r = .outside ∧ st.reportedOutside = true) ∨ r = .fault) →
      exec (.responseByteClockedIn p) s
        = .next (s.modPort p (fun u =>
            { u with selectActive := true, out := 0xFF, worst := u.worst.worse r
                     stream := some { st with passed := st.passed + 1 } })))
    ∧ (∀ b rest faulted, st.passed < st.length → st.passed + 1 ≠ st.stopAt → st.serve = .raw (b :: rest) faulted →
      exec (.responseByteClockedIn p) s
        = .next (s.modPort p (fun u =>
            { u with selectActive := true, out := b, worst := if u.worst = ReadResult.ok then .raw else u.worst
                     stream := some { st with passed := st.passed + 1, serve := .raw rest faulted } })))
    ∧ (∀ c, st.passed < st.length → st.passed + 1 ≠ st.stopAt → st.serve = .raw [] false →
        s.fc.port = .op c → c.req.purpose = .raw p → c.req.live = true → c.delivered + 1 < c.req.len →
      exec (.responseByteClockedIn p) s
        = .next ({ s with fc := { s.fc with port := .op { c with delivered := c.delivered + 1 } } }.modPort p (fun u =>
            { u with selectActive := true, out := Memory.read s.flash (c.req.addr + c.delivered)
                     worst := if u.worst = ReadResult.ok then .raw else u.worst
                     stream := some { st with passed := st.passed + 1 } })))
    ∧ (∀ n, st.passed < st.length → st.passed + 1 = st.stopAt → st.serve = .slot n → s.pb.prefetch = [] →
      ∃ t, exec (.responseByteClockedIn p) s = .next t
        ∧ (t.port p).out = (s.bufferSlot n).data.getD ((st.start + st.passed) % 4096) 0xFF
        ∧ (t.port p).worst = (s.port p).worst
        ∧ (st.passed + 1 = st.length →
            (t.port p).stream = some { st with passed := st.passed + 1, serve := .answer .ok }
            ∧ (t.bufferSlot n).pins = (s.bufferSlot n).pins - 1)
        ∧ (st.passed + 1 < st.length → s.windowAt p ((st.start + st.passed + 1) % 268435456 / 4096) = .none →
            (t.bufferSlot n).pins = (s.bufferSlot n).pins - 1
            ∧ ((t.port p).stream.map (fun v => (v.passed, v.serve))) = some (st.passed + 1, .answer .outside))
        ∧ (∀ g m, st.passed + 1 < st.length → s.windowAt p ((st.start + st.passed + 1) % 268435456 / 4096) = .image g →
            ((s.image g).state = .accepted ∨ (s.image g).state = .failed) →
            s.pageState g ((st.start + st.passed + 1) % 268435456 / 4096 - (s.image g).loadBase) ≠ .bad →
            s.present g ((st.start + st.passed + 1) % 268435456 / 4096 - (s.image g).loadBase) = some m → m ≠ n →
            (t.bufferSlot n).pins = (s.bufferSlot n).pins - 1 ∧ (t.bufferSlot m).pins = (s.bufferSlot m).pins + 1
            ∧ ((t.port p).stream.map (fun v => (v.passed, v.serve))) = some (st.passed + 1, .slot m)))
    ∧ (∀ b r, st.passed < st.length → st.passed + 1 = st.stopAt → s.pb.prefetch = [] →
        ((b = 0xFF ∧ (st.serve = .answer r ∨ (st.serve = .raw [] true ∧ r = .fault)))
          ∨ (r = .raw ∧ ∃ rest faulted, st.serve = .raw (b :: rest) faulted)) →
      ∃ t, exec (.responseByteClockedIn p) s = .next t
        ∧ (t.port p).out = b ∧ (t.port p).worst = (s.port p).worst.worse r
        ∧ (t.port p).violation
            = (if r = .withheld ∧ st.reportedWithheld = false then
                ((s.port p).reported s.holdoffH .withheld ((st.start + st.passed) % 268435456)).violation
              else if r = .outside ∧ st.reportedOutside = false then
                ((s.port p).reported s.holdoffH .outside ((st.start + st.passed) % 268435456)).violation
              else (s.port p).violation)
        ∧ (st.passed + 1 = st.length →
            ((t.port p).stream.map (fun v => (v.passed, v.serve))) = some (st.passed + 1, .answer .ok))
        ∧ (st.passed + 1 < st.length → s.windowAt p ((st.start + st.passed + 1) % 268435456 / 4096) = .none →
            ((t.port p).stream.map (fun v => (v.passed, v.serve))) = some (st.passed + 1, .answer .outside))
        ∧ (∀ g m, st.passed + 1 < st.length → s.windowAt p ((st.start + st.passed + 1) % 268435456 / 4096) = .image g →
            ((s.image g).state = .accepted ∨ (s.image g).state = .failed) →
            s.pageState g ((st.start + st.passed + 1) % 268435456 / 4096 - (s.image g).loadBase) ≠ .bad →
            s.present g ((st.start + st.passed + 1) % 268435456 / 4096 - (s.image g).loadBase) = some m →
            (t.bufferSlot m).pins = (s.bufferSlot m).pins + 1
            ∧ ((t.port p).stream.map (fun v => (v.passed, v.serve))) = some (st.passed + 1, .slot m)))
    ∧ (st.length ≤ st.passed →
      exec (.responseByteClockedIn p) s
        = .next (s.modPort p (fun u =>
            { u with selectActive := true, out := byteOf u.worst.code, stream := none, response := [] })))
    ∧ (st.passed < st.length → st.stalled = true →
        (∀ c, st.serve = .raw [] false → s.fc.port = .op c → c.req.purpose = .raw p → c.req.live = true →
          c.req.len ≤ c.delivered + 1) →
      exec (.responseByteClockedIn p) s = .next (s.modPort p (fun u => { u with selectActive := true })))

/-! ## The commands common to all ports (7.3, 7.4) -/

/-- READ at its take (R49, R52, R53, R135): E takes its after-value, the worst result is OK, the port is RESPONDING with
byte 0 of the READ next; and the first page is classified. Outside every window it is OUTSIDE. A CHECKING window
stalls; a REJECTED one and a BAD page are WITHHELD; a present page of an ACCEPTED or FAILED window is served from its
pinned slot (an absent one: AbsentPageNeeded). A staging window that is FREE or DISCARDED, or a page beyond its slot, is
OUTSIDE, a SEALING one WITHHELD; a RAW run in an OPEN, SEALED or SEAL_FAILED one, or in factory state, makes one READ of
class DEMAND for the rest of the READ in the window (where a slot's window ends: log entry 14), which starts at once on
a free flash and suspends a running erase (R114). -/
def Obligations.ReadTaken : Prop :=
  ∀ (s : State) (p : PortId) (offset : BitVec 24) (length : BitVec 16),
    s.ready p = true → 1 ≤ length.toNat → length.toNat ≤ 8192 → s.pb.prefetch = [] →
    ∃ t st, exec (.read p offset length) s = .next t
      ∧ (t.port p).e = BitVec.ofNat 4 ((((s.port p).e.toNat * 16777216 + offset.toNat + length.toNat) % 268435456) / 16777216)
      ∧ (t.port p).worst = .ok ∧ (t.port p).frame = .responding ∧ (t.port p).response = []
      ∧ (t.port p).stream = some st
      ∧ st.start = (s.port p).e.toNat * 16777216 + offset.toNat ∧ st.length = length.toNat ∧ st.passed = 0
      ∧ (s.windowAt p (st.start / 4096) = .none → st.serve = .answer .outside)
      ∧ (∀ g, s.windowAt p (st.start / 4096) = .image g →
          ((s.image g).state = .checking → st.serve = .stallChecking g)
          ∧ ((s.image g).state = .rejected → st.serve = .answer .withheld)
          ∧ (((s.image g).state = .accepted ∨ (s.image g).state = .failed) →
              s.pageState g (st.start / 4096 - (s.image g).loadBase) = .bad → st.serve = .answer .withheld)
          ∧ (∀ n, ((s.image g).state = .accepted ∨ (s.image g).state = .failed) →
              s.pageState g (st.start / 4096 - (s.image g).loadBase) ≠ .bad →
              s.present g (st.start / 4096 - (s.image g).loadBase) = some n →
              st.serve = .slot n ∧ (t.bufferSlot n).pins = (s.bufferSlot n).pins + 1))
      ∧ (∀ w, s.windowAt p (st.start / 4096) = .staging w →
          (((s.staging w).state = .free ∨ (s.staging w).state = .discarded
              ∨ stagingBasePage w + (s.staging w).sizePages ≤ st.start / 4096) → st.serve = .answer .outside)
          ∧ ((s.staging w).state = .sealing → st.start / 4096 < stagingBasePage w + (s.staging w).sizePages →
              st.serve = .answer .withheld))
      ∧ (∀ endPage addr,
          ((s.windowAt p (st.start / 4096) = .factory ∧ endPage = 8192 ∧ addr = st.start)
            ∨ ∃ w, s.windowAt p (st.start / 4096) = .staging w
                ∧ ((s.staging w).state = .opened ∨ (s.staging w).state = .sealed ∨ (s.staging w).state = .sealFailed)
                ∧ endPage = stagingBasePage w + (s.staging w).sizePages ∧ st.start / 4096 < endPage
                ∧ addr = (s.staging w).base + (st.start - stagingBasePage w * 4096)) →
          st.serve = .raw [] false ∧ st.stopAt = min length.toNat (endPage * 4096 - st.start)
          ∧ ∀ r : FlashRequest,
            r = { purpose := .raw p, addr := addr, len := st.stopAt, cls := .demand, live := true } →
            (s.fc.port ≠ .idle → s.fc.erase = .none →
              t.fc = { s.fc with queues := { s.fc.queues with demand := s.fc.queues.demand ++ [r] } })
            ∧ (∀ c e x, s.fc.port = .op c → c.req.purpose = .erase x → s.fc.erase = .erasing e →
              t.fc = { s.fc with queues := { s.fc.queues with demand := s.fc.queues.demand ++ [r] }, erase := .suspending e })
            ∧ (s.fc.port = .idle → s.fc.erase = .none → s.fc.noneWaiting = true →
              t.fc = { s.fc with port := r.started s.fc.step }))

/-- A READ needs a page of an ACCEPTED or FAILED window that is neither present nor BAD (R89, R91 to R95): the byte waits.
Without a record a DEMAND record is made, with the port as origin and waiter. A DEMAND record is joined. A PREFETCH or
SWEEP record is joined and becomes DEMAND with the port as origin; a sweep-made one keeps SWEEP-MADE and will end in a
slot, a READY one's waiting READ moves to the DEMAND queue and suspends a running erase (R112, R114), and a READING one's READ runs on. A port that is already the
origin of a DEMAND record waits for that record's end instead, and no record changes. -/
def Obligations.AbsentPageNeeded : Prop :=
  ∀ (s : State) (p : PortId) (offset : BitVec 24) (length : BitVec 16) (g : Tag) (i page : Nat),
    s.ready p = true → 1 ≤ length.toNat → length.toNat ≤ 8192 → s.pb.prefetch = [] →
    page = ((s.port p).e.toNat * 16777216 + offset.toNat) / 4096 → s.windowAt p page = .image g →
    ((s.image g).state = .accepted ∨ (s.image g).state = .failed) →
    i = page - (s.image g).loadBase → s.pageState g i ≠ .bad → s.present g i = none →
    ∃ t, exec (.read p offset length) s = .next t ∧ t.wait p = true
      ∧ (s.record (.image g) i = none → s.isOrigin p = false →
          t.serving p = some (.stallFill g i)
          ∧ ∃ r, t.record (.image g) i = some r ∧ r.cls = .demand ∧ r.origin = some p ∧ r.waiters = [p]
            ∧ r.sweepMade = false ∧ r.holdFor = none ∧ r.reRead = false
            ∧ r.pageAddr = (s.image g).pageBase + i * 4096 ∧ r.groupAddr = (s.image g).groupBase + i / 64 * 2048)
      ∧ (∀ r, s.record (.image g) i = some r → r.cls = .demand →
          t.serving p = some (.stallFill g i) ∧ t.fc = s.fc
          ∧ t.record (.image g) i
              = some { r with waiters := if r.waiters.contains p then r.waiters else r.waiters ++ [p] })
      ∧ (∀ r, s.record (.image g) i = some r → r.cls ≠ .demand → s.isOrigin p = false →
          t.serving p = some (.stallFill g i)
          ∧ (∃ r', t.record (.image g) i = some r' ∧ r'.cls = .demand ∧ r'.origin = some p
            ∧ r'.waiters = (if r.waiters.contains p then r.waiters else r.waiters ++ [p])
            ∧ r'.sweepMade = r.sweepMade ∧ r'.holdFor = r.holdFor
            ∧ (r.dest = .scratch → r'.dest = .scratchThenSlot))
          ∧ (∀ q, r.state = .ready → s.fc.port ≠ .idle → s.fc.erase = .none →
              s.fc.queues.find (.page (.image g) i) = some q → q.cls ≠ .demand →
              { q with cls := .demand } ∈ t.fc.queues.demand)
          ∧ (∀ q c e x, r.state = .ready → s.fc.port = .op c → c.req.purpose = .erase x → s.fc.erase = .erasing e →
              s.fc.queues.find (.page (.image g) i) = some q → q.cls ≠ .demand →
              { q with cls := .demand } ∈ t.fc.queues.demand ∧ t.fc.erase = .suspending e)
          ∧ (r.state = .reading → t.fc = s.fc))
      ∧ (s.isOrigin p = true → (∀ r, s.record (.image g) i = some r → r.cls ≠ .demand) →
          t.serving p = some (.stallOrigin g i) ∧ t.pb.records = s.pb.records ∧ t.fc = s.fc)

/-- SET-EXT (R136). A value 0..15 sets E at the take and is answered DONE with RESULT LENGTH 0, and nothing else changes; a
READ taken with that E starts at E × 2^24 + OFFSET. A value above 15 is refused with RANGE, and in factory state every
value with STATE, with E unchanged. A SET-EXT that reaches a port that gives no responses leaves E unchanged, and so does
one that is deferred behind a BACKGROUND command and then discarded by select release. -/
def Obligations.SetExtSetsE : Prop :=
  ∀ (s : State) (p : PortId) (v : Byte),
    (s.ready p = true → s.factory = false → v.toNat ≤ 15 →
      exec (.setExt p v) s = .next (s.modPort p (fun u =>
        { (u.answered (doneResponse [])) with e := BitVec.ofNat 4 v.toNat })))
    ∧ (∀ (offset : BitVec 24) (length : BitVec 16), s.ready p = true → (s.port p).e = BitVec.ofNat 4 v.toNat →
        1 ≤ length.toNat → length.toNat ≤ 8192 → s.pb.prefetch = [] →
        ∃ t st, exec (.read p offset length) s = .next t ∧ (t.port p).stream = some st
          ∧ st.start = v.toNat % 16 * 16777216 + offset.toNat)
    ∧ (s.ready p = true → s.factory = false → 15 < v.toNat →
        exec (.setExt p v) s = .next (s.answering p (refusedResponse .range)))
    ∧ (s.ready p = true → s.factory = true → exec (.setExt p v) s = .next (s.answering p (refusedResponse .state)))
    ∧ (s.answers p = false → ∃ t, exec (.setExt p v) s = .next t ∧ (t.port p).e = (s.port p).e)
    ∧ (s.answers p = true → (s.port p).ignoring = false → (s.port p).frame = .idle →
        (s.port p).background.isSome = true →
        ∃ t t', exec (.setExt p v) s = .next t ∧ (t.port p).frame = .deferred ∧ (t.port p).e = (s.port p).e
          ∧ exec (.selectRelease p) t = .next t' ∧ (t'.port p).frame = .idle ∧ (t'.port p).e = (s.port p).e)

/-- STATUS and REPORT are answered DONE with the records composed at the take, and change nothing (R137, R138). Every byte of
both records: the fields of Tables 1-3 and 1-7 at their offsets, from the port, its windows, the restart cause, the flash
controller, the permit unit, the one-time store, the page buffer (R108), the sweep and the window table, with the codes of
Table 1-1. The zeros in the unnamed bytes of the window entries and in the unnamed bits of the FLAGS bytes are the model's
choice (log entry 24), and so are LOAD BASE, ROLE and the two properties of a window in factory state (log entry 25). -/
def Obligations.RecordsComposedAtTake : Prop :=
  (∀ (s : State) (p : PortId), s.ready p = true →
    exec (.status p) s = .next (s.answering p (doneResponse (statusRecord s p)))
    ∧ exec (.report p) s = .next (s.answering p (doneResponse (reportRecord s))))
  ∧ (∀ (s : State) (p : PortId) (status : List Byte) (u : PortUnit), status = statusRecord s p → u = s.port p →
    status.length = 13 + 8 * (s.boundTags p).length
    ∧ (∀ t : Tag, t ∈ s.boundTags p ↔ (s.image t).owner = some p) ∧ (s.boundTags p).Pairwise (· < ·)
    ∧ HoldsFields status
        [(0, 1, 4), (1, 1, 0), (2, 1, p.val), (3, 1, roleCode (s.cfg.bind (fun c => (c.ports[p]).role))),
         (4, 1, (s.life p).state.code), (5, 1, u.e.toNat), (6, 1, if s.pu.printEn then 1 else 0), (7, 1, u.events.toNat),
         (8, 1, violationCode u.violation.kind), (9, 1, u.violation.further), (10, 1, if u.violation.overflow then 1 else 0),
         (11, 1, 0), (12, 1, (s.boundTags p).length)]
    ∧ ∀ (m : Nat) (t : Tag) (w : ImageWindow), (s.boundTags p)[m]? = some t → w = s.image t →
        HoldsFields (status.drop (13 + 8 * m))
          [(0, 1, t.val), (1, 1, w.state.code), (2, 1, slotCode w.slot), (3, 1, w.reasonA.code), (4, 1, w.reasonB.code),
           (5, 1, 0), (6, 2, if w.slot.isSome then w.version else 0)])
  ∧ (∀ (s : State) (report : List Byte) (o : TimeoutRecord), report = reportRecord s → o = s.fc.timeout →
    report.length = 272
    ∧ HoldsFields report
        [(0, 1, 4), (1, 1, 0), (2, 1, s.lc.cause.code), (3, 1, portCode s.lc.causePort), (4, 1, s.fc.step),
         (5, 1, if s.pu.printEn then 1 else 0), (6, 1, if s.pu.latch then 1 else 0), (7, 1, s.ots.revoked.length),
         (8, 1, (s.pb.records.filter (fun r => r.cls == .demand)).length),
         (9, 1, (s.pb.records.filter (fun r => r.cls == .prefetch)).length),
         (10, 1, (s.pb.records.filter (fun r => r.cls == .sweep)).length),
         (11, 1, (allSlots.filter (fun n => (s.bufferSlot n).state == .free)).length),
         (12, 1, (allSlots.filter (fun n => (s.bufferSlot n).state == .filling)).length),
         (13, 1, (allSlots.filter (fun n => (s.bufferSlot n).state == .valid)).length),
         (14, 1, timeoutCode o.kind), (15, 1, o.cls.code), (16, 1, requesterCode o.requester), (17, 1, o.further),
         (18, 4, o.addr), (22, 1, s.streamState.code), (23, 1, 0)]
    ∧ (s.sw.inFlight = .none → s.streamState = .idle) ∧ (s.sw.inFlight = .groupCheck → s.streamState = .active)
    ∧ (∀ w i, s.sw.inFlight = .record w i →
        s.streamState = if (s.record w i).map (·.state) = some .parked then .parked else .active)
    ∧ (∀ t : Tag, HoldsFields report
        [(24 + 2 * t.val, 2, ((s.ots.floors[t]).getLast?).getD 0), (40 + t.val, 1, (s.ots.floors[t]).length)])
    ∧ (∀ (t : Tag) (w : ImageWindow) (sel : Nat → Nat), w = s.image t → (∀ n, sel n = if w.slot.isSome then n else 0) →
        HoldsFields (report.drop (48 + 24 * t.val))
          [(0, 1, w.state.code), (1, 1, slotCode w.slot), (2, 1, w.reasonA.code), (3, 1, w.reasonB.code),
           (4, 1, portCode w.owner), (5, 1, if w.boot then 1 else 0),
           (6, 1, (if w.touched then 1 else 0) + (if s.lc.fallbackUsed[t] then 2 else 0)), (7, 1, 0), (8, 2, sel w.version),
           (10, 2, sel w.pageCount), (12, 2, w.loadBase), (14, 2, sel w.good), (16, 2, sel w.bad), (18, 2, sel w.cursor),
           (20, 4, sel w.serial.toNat)])
    ∧ (∀ (i : StagingId) (w : StagingWindow), w = s.staging i →
        HoldsFields (report.drop (240 + 16 * i.val))
          [(0, 1, w.state.code), (1, 1, w.tag.val), (2, 1, slotCode w.slot),
           (3, 1, (if w.written then 1 else 0) + (if w.warned then 2 else 0)), (4, 1, w.reason.code), (5, 3, 0),
           (8, 2, w.sizePages), (10, 2, w.firstBad.getD 0xFFFF), (12, 2, w.checked), (14, 2, 0)]))
  ∧ [WindowState.unused, .checking, .accepted, .rejected, .failed].map WindowState.code = [0, 1, 2, 3, 4]
  ∧ [StagingState.free, .opened, .sealing, .sealed, .sealFailed, .discarded].map StagingState.code = [0, 1, 2, 3, 4, 5]
  ∧ [none, some SlotId.a, some .b].map slotCode = [0, 1, 2]
  ∧ [PortState.unused, .held, .prefetch, .running, .confirmed, .faulted].map PortState.code = [0, 1, 2, 3, 4, 5]
  ∧ [some Role.formatter, some .engine, some .panel, some .scanfax, none].map roleCode = [0, 1, 2, 3, 0xFF]
  ∧ [Reason.none, .noDirectory, .noSlot, .layout, .format, .tagMismatch, .slotMismatch, .loadMismatch, .belowFloor,
      .rootUnusable, .certRevoked, .mapFull, .certSignature, .manifestSignature, .flashFault, .groupMismatch, .pageMismatch,
      .discarded].map Reason.code = List.range 18
  ∧ [none, some ViolationKind.outside, some .withheld, some .command, some .writeOutside].map violationCode = [0, 1, 2, 3, 4]
  ∧ [OpClass.demand, .prefetch, .walker, .staging, .sweep].map OpClass.code = [0, 1, 2, 3, 4]
  ∧ [none, some TimeoutKind.read, some .program, some .erase, some .suspend].map timeoutCode = [0, 1, 2, 3, 4]
  ∧ [none, some Requester.pageBuffer, some .integrity, some .manifest, some .window].map requesterCode = [0, 1, 2, 3, 4]
  ∧ [StreamState.idle, .active, .parked].map StreamState.code = [0, 1, 2]
  ∧ [Cause.powerOn, .command, .deadline].map Cause.code = [0, 1, 2]
  ∧ [none, some (0 : PortId), some 1, some 2, some 3].map portCode = [0xFF, 0, 1, 2, 3]

/-- NOTICE-READ (R147): the answer carries the set as it stands and the mask; the set is emptied, the holdoff timer stops
and NOTICE is deasserted. An ordinary enabled event posted next waits a full holdoff. An abandoned NOTICE-READ leaves
the set emptied. -/
def Obligations.NoticeReadEmptiesSet : Prop :=
  ∀ (s : State) (p : PortId), s.ready p = true →
    ∃ t, exec (.noticeRead p) s = .next t
      ∧ t = s.modPort p (fun u =>
          { (u.answered (doneResponse [u.events, u.mask])) with events := 0, holdoff := none })
      ∧ t.notice p = false
      ∧ (∀ ev : Event, ((t.post p ev).port p).events = ev.bit
          ∧ (ev.urgent = false → (t.port p).mask &&& ev.bit ≠ 0 →
              ((t.post p ev).port p).holdoff = holdoffOf s.holdoffH))
      ∧ (∃ t', exec (.selectRelease p) t = .next t' ∧ (t'.port p).events = 0)

/-- NOTICE-MASK (R146): the mask takes bits 0 to 6 of the argument, the event set stays, the answer is DONE, and the NOTICE
level is the one R144 gives for the new mask. Where that level is asserted the timer stops, as the table of R144 says;
R146 by itself says that the timer is unchanged (the model's choice: log entry 23). -/
def Obligations.NoticeMaskSetsMask : Prop :=
  ∀ (s : State) (p : PortId) (mask : Byte), s.ready p = true →
    ∃ t, exec (.noticeMask p mask) s = .next t
      ∧ { t with ports := s.ports } = s ∧ (∀ q, q ≠ p → t.port q = s.port q)
      ∧ (t.port p).mask = mask &&& 0x7F ∧ (t.port p).events = (s.port p).events ∧ (t.port p).e = (s.port p).e
      ∧ (t.port p).frame = .responding ∧ (t.port p).response = doneResponse []
      ∧ ((t.port p).noticeLevel = true ↔
          ((s.port p).events &&& (mask &&& 0x7F) &&& 0x44 ≠ 0)
            ∨ ((s.port p).events &&& (mask &&& 0x7F) ≠ 0 ∧ (s.port p).holdoff = none))
      ∧ ((t.port p).noticeLevel = false → (t.port p).holdoff = (s.port p).holdoff)
      ∧ ((t.port p).noticeLevel = true → (t.port p).holdoff = none)

/-- VIOLATION-READ (R140) is answered DONE with KIND, FLAGS, FURTHER, a zero byte and DETAIL of the record as it stands; the
record is emptied and nothing else changes, so that a pending VIOLATION event stays pending. Of an empty record it
returns eight zero bytes and changes nothing. Of a record that is not empty, Table 1-5 gives bit 0 of FLAGS alone: the zeros
in its bits 1 to 7 are the model's choice (log entry 24). -/
def Obligations.ViolationReadEmptiesRecord : Prop :=
  ∀ (s : State) (p : PortId), s.ready p = true → s.factory = false →
    exec (.violationRead p) s = .next (s.modPort p (fun u =>
      { (u.answered (doneResponse
          ([byteOf (violationCode u.violation.kind), byteOf (bitOf u.violation.overflow), byteOf u.violation.further, 0]
            ++ leBytes 4 u.violation.detail))) with violation := Violation.empty }))
    ∧ ((s.port p).violation = Violation.empty →
        exec (.violationRead p) s = .next (s.answering p (doneResponse [0, 0, 0, 0, 0, 0, 0, 0])))

/-- REPORT-CLEAR (R139) from the formatter's port, outside factory state, empties the timeout record, is answered DONE with
RESULT LENGTH 0 and changes nothing else; a FAULT that arises after it fills the emptied record. From another port it is
refused with NOT_PERMITTED and a COMMAND violation report, and in factory state with STATE. -/
def Obligations.ReportClearEmptiesTimeout : Prop :=
  ∀ (s : State) (p : PortId), s.ready p = true →
    (s.formatterReady p = true →
      ∃ t, exec (.reportClear p) s = .next t
        ∧ t = ({ s with fc := { s.fc with timeout := TimeoutRecord.empty } }).answering p (doneResponse [])
        ∧ ∀ (k : TimeoutKind) (r : FlashRequest), (t.recordFault k r).fc.timeout
            = { kind := some k, addr := r.addr, cls := r.cls, requester := some r.purpose.requester, further := 0 })
    ∧ (s.formatterPort ≠ some p →
        exec (.reportClear p) s = .next (s.refusing p .command 0x10 .notPermitted))
    ∧ (s.formatterPort = some p → s.factory = true →
        exec (.reportClear p) s = .next (s.answering p (refusedResponse .state)))

/-- BOOT-DONE (R155): a RUNNING port becomes CONFIRMED, its deadline timer stops so that no expiry follows, and the permit
unit hears of it; a CONFIRMED port's BOOT-DONE is refused with STATE and changes nothing. -/
def Obligations.BootDoneConfirms : Prop :=
  ∀ (s : State) (p : PortId), s.ready p = true → s.factory = false →
    ((s.life p).state = .running →
      ∃ t, exec (.bootDone p) s = .next t
        ∧ t.life p = { s.life p with state := .confirmed, deadline := none }
        ∧ (∀ q, q ≠ p → t.life q = s.life q)
        ∧ (t.port p).frame = .responding ∧ (t.port p).response = doneResponse []
        ∧ t.pu.printEn = t.permitCondition ∧ t.pu.latch = s.pu.latch
        ∧ { t with lc := s.lc, pu := s.pu, ports := s.ports } = s
        ∧ exec (.deadlineExpiry p) t = .next t)
    ∧ ((s.life p).state = .confirmed →
      exec (.bootDone p) s = .next (s.answering p (refusedResponse .state)))

/-- The posting of an event (R142, R144): the event joins the set; an ordinary enabled event that finds NOTICE's level
deasserted restarts the holdoff; an urgent enabled event asserts the level at once and stops the timer; any other
posting leaves the timer. Once asserted, the level stays asserted, with the timer stopped as it was; whenever a posting
leaves the level asserted, the timer is stopped. The holdoff timer expires: it stops, and NOTICE of an answering port is
then asserted exactly when the set holds an enabled event. -/
def Obligations.PostingFollowsHoldoff : Prop :=
  (∀ (u : PortUnit) (h : Nat) (ev : Event),
    (PortUnit.post h ev u).events = u.events ||| ev.bit
    ∧ { PortUnit.post h ev u with events := u.events, holdoff := u.holdoff } = u
    ∧ (u.noticeLevel = true → (PortUnit.post h ev u).noticeLevel = true)
    ∧ (u.noticeLevel = true → u.holdoff = none → (PortUnit.post h ev u).holdoff = u.holdoff)
    ∧ (ev.urgent = true → u.mask &&& ev.bit ≠ 0 →
        (PortUnit.post h ev u).noticeLevel = true ∧ (PortUnit.post h ev u).holdoff = none)
    ∧ (ev.urgent = false → u.mask &&& ev.bit ≠ 0 → u.noticeLevel = false →
        (PortUnit.post h ev u).holdoff = (if h = 0 then none else some (h * 250)))
    ∧ (u.mask &&& ev.bit = 0 → u.noticeLevel = false →
        (PortUnit.post h ev u).holdoff = u.holdoff ∧ (PortUnit.post h ev u).noticeLevel = false)
    ∧ ((PortUnit.post h ev u).noticeLevel = true → (PortUnit.post h ev u).holdoff = none))
  ∧ (∀ (s : State) (p : PortId),
    exec (.holdoffExpiry p) s = .next (s.modPort p (fun u => { u with holdoff := none }))
    ∧ ((s.modPort p (fun u => { u with holdoff := none })).notice p = true ↔
        s.answers p = true ∧ (s.port p).events &&& (s.port p).mask ≠ 0))

/-! ## Staging and commit (chapter 10) -/

/-- STAGE-OPEN (R181): a TAG above 7 is refused with RANGE; a formatter's port that is not CONFIRMED, a window that is not
ACCEPTED and another slot that is not VALID in the directory view with STATE; a staging window of the tag that is OPEN or
SEALING with BUSY; no window FREE or DISCARDED with FULL. Otherwise the lowest such window is opened on the other slot
with every field set, nothing else changes, and WINDOW and SLOT are answered DONE. -/
def Obligations.StageOpenOpensWindow : Prop :=
  ∀ (s : State) (p : PortId) (tag : Byte), s.formatterReady p = true →
    (7 < tag.toNat → exec (.stageOpen p tag) s = .next (s.answering p (refusedResponse .range)))
    ∧ ∀ t : Tag, tag.toNat = t.val →
      ((s.life p).state ≠ .confirmed → exec (.stageOpen p tag) s = .next (s.answering p (refusedResponse .state)))
      ∧ ((s.image t).state ≠ .accepted → exec (.stageOpen p tag) s = .next (s.answering p (refusedResponse .state)))
      ∧ ∀ x : SlotId, (s.life p).state = .confirmed → (s.image t).state = .accepted → (s.image t).slot = some x →
        (s.slotValid t x.other = false → exec (.stageOpen p tag) s = .next (s.answering p (refusedResponse .state)))
        ∧ (s.slotValid t x.other = true →
            (∃ w, (s.staging w).tag = t ∧ ((s.staging w).state = .opened ∨ (s.staging w).state = .sealing)) →
            exec (.stageOpen p tag) s = .next (s.answering p (refusedResponse .busy)))
        ∧ (s.slotValid t x.other = true →
            (∀ w, (s.staging w).tag = t → (s.staging w).state ≠ .opened ∧ (s.staging w).state ≠ .sealing) →
            ((∀ w, (s.staging w).state ≠ .free ∧ (s.staging w).state ≠ .discarded) →
              exec (.stageOpen p tag) s = .next (s.answering p (refusedResponse .full)))
            ∧ ∀ w : StagingId, ((s.staging w).state = .free ∨ (s.staging w).state = .discarded) →
              (∀ v, v < w → (s.staging v).state ≠ .free ∧ (s.staging v).state ≠ .discarded) →
              exec (.stageOpen p tag) s = .next
                ((s.modStaging w (fun _ =>
                    { state := .opened, tag := t, slot := some x.other, base := (s.directory t).base x.other * 65536,
                      sizePages := (s.directory t).slotSize * 16, written := false, warned := false, reason := .none,
                      firstBad := none, checked := 0, digests := [] })).answering p
                  (doneResponse [byteOf w.val, byteOf (slotCode (some x.other))])))

/-- STAGE-ERASE at its take (R182): its tests with their refusals, the RANGE ones with a WRITE_OUTSIDE report; and the
ERASE it requests at class STAGING, which waits while the flash port is busy and starts at once on a free one. -/
def Obligations.StageEraseRequestsErase : Prop :=
  ∀ (s : State) (p : PortId) (window : Byte) (sector : BitVec 16), s.formatterReady p = true →
    (1 < window.toNat → exec (.stageErase p window sector) s = .next (s.refusing p .writeOutside 0x12 .range))
    ∧ ∀ w : StagingId, window.toNat = w.val →
      ((s.staging w).state ≠ .opened →
        exec (.stageErase p window sector) s = .next (s.answering p (refusedResponse .state)))
      ∧ ((s.staging w).state = .opened → (s.staging w).sizePages / 16 ≤ sector.toNat →
        exec (.stageErase p window sector) s = .next (s.refusing p .writeOutside 0x12 .range))
      ∧ ∀ r : FlashRequest, (s.staging w).state = .opened → sector.toNat < (s.staging w).sizePages / 16 →
        r = { purpose := .erase p, addr := (s.staging w).base + sector.toNat * 65536, len := 65536, cls := .staging,
              live := true } →
        (s.fc.port ≠ .idle →
          exec (.stageErase p window sector) s = .next
            ({ s with fc := { s.fc with queues := { s.fc.queues with staging := s.fc.queues.staging ++ [r] } } }.modPort p
              (fun u => u.executing 0x12)))
        ∧ (s.fc.port = .idle → s.fc.erase = .none → s.fc.noneWaiting = true →
          exec (.stageErase p window sector) s = .next
            ({ s with fc := { s.fc with port := r.started s.fc.step, erase := .erasing r } }.modPort p
              (fun u => u.executing 0x12)))

/-- STAGE-WRITE at its take (R183): its tests with their refusals, the RANGE ones with a WRITE_OUTSIDE report; WRITTEN, and
in the slot's last sector NEAR-END WARNED with STAGE_WARN at the first such write; and the PROGRAM it requests at class
STAGING. -/
def Obligations.StageWriteRequestsProgram : Prop :=
  ∀ (s : State) (p : PortId) (window : Byte) (offset : BitVec 32) (data : List Byte),
    s.formatterReady p = true → 1 ≤ data.length → data.length ≤ 256 →
    (1 < window.toNat → exec (.stageWrite p window offset data) s = .next (s.refusing p .writeOutside 0x13 .range))
    ∧ ∀ w : StagingId, window.toNat = w.val →
      ((s.staging w).state ≠ .opened →
        exec (.stageWrite p window offset data) s = .next (s.answering p (refusedResponse .state)))
      ∧ ((s.staging w).state = .opened →
          ((s.staging w).sizePages * 4096 < offset.toNat + data.length
            ∨ offset.toNat / 256 ≠ (offset.toNat + data.length - 1) / 256) →
        exec (.stageWrite p window offset data) s = .next (s.refusing p .writeOutside 0x13 .range))
      ∧ ∀ r : FlashRequest, (s.staging w).state = .opened →
        offset.toNat + data.length ≤ (s.staging w).sizePages * 4096 →
        offset.toNat / 256 = (offset.toNat + data.length - 1) / 256 →
        r = { purpose := .program p data, addr := (s.staging w).base + offset.toNat, len := data.length, cls := .staging,
              live := true } →
        ∃ t, exec (.stageWrite p window offset data) s = .next t
          ∧ (t.port p).frame = .executing 0x13
          ∧ (t.staging w).written = true
          ∧ ((t.staging w).warned = true ↔
              (s.staging w).warned = true ∨ ((s.staging w).sizePages / 16 - 1) * 65536 ≤ offset.toNat)
          ∧ ((s.staging w).warned = false → ((s.staging w).sizePages / 16 - 1) * 65536 ≤ offset.toNat →
              (t.port p).events = (s.port p).events ||| 0x10)
          ∧ (((s.staging w).warned = true ∨ offset.toNat < ((s.staging w).sizePages / 16 - 1) * 65536) →
              (t.port p).events = (s.port p).events)
          ∧ { t.staging w with written := (s.staging w).written, warned := (s.staging w).warned } = s.staging w
          ∧ (∀ v, v ≠ w → t.staging v = s.staging v) ∧ (∀ q, q ≠ p → t.port q = s.port q)
          ∧ t.flash = s.flash ∧ t.wu.image = s.wu.image
          ∧ (s.fc.port ≠ .idle →
              t.fc = { s.fc with queues := { s.fc.queues with staging := s.fc.queues.staging ++ [r] } })
          ∧ (s.fc.port = .idle → s.fc.erase = .none → s.fc.noneWaiting = true →
              t.fc = { s.fc with port := r.started s.fc.step })

/-- SEAL at its take (R185): its tests, the SEALING window, the DONE answer, and the seal request, which the seal check
record takes at once when it and the manifest buffer are free (R38). -/
def Obligations.SealTaken : Prop :=
  ∀ (s : State) (p : PortId) (window : Byte), s.formatterReady p = true →
    (1 < window.toNat → exec (.sealWindow p window) s = .next (s.answering p (refusedResponse .range)))
    ∧ ∀ w : StagingId, window.toNat = w.val →
      (((s.staging w).state ≠ .opened ∨ (s.staging w).written = false) →
        exec (.sealWindow p window) s = .next (s.answering p (refusedResponse .state)))
      ∧ ((s.staging w).state = .opened → (s.staging w).written = true →
        (s.mu.sealCheck.isSome = true →
          exec (.sealWindow p window) s = .next
            (({ s with mu := { s.mu with sealRequests := s.mu.sealRequests ++ [w] } }.modStaging w (fun x =>
                { x with state := .sealing, reason := .none, firstBad := none, checked := 0 })).answering p
              (doneResponse [])))
        ∧ (s.mu.sealCheck = none → s.mu.sealRequests = [] → s.mu.holder = .none → s.mu.walker.phase = .idle →
            s.fc.port ≠ .idle → s.fc.erase = .none →
          ∃ t, exec (.sealWindow p window) s = .next t
            ∧ t.staging w = { s.staging w with state := .sealing, reason := .none, firstBad := none, checked := 0 }
            ∧ (∀ v, v ≠ w → t.staging v = s.staging v)
            ∧ t.port p = (s.port p).answered (doneResponse [])
            ∧ t.mu.holder = .sealCheck ∧ t.mu.sealRequests = []
            ∧ (t.mu.sealCheck.map (fun c => (c.win, c.phase))) = some (w, .read)
            ∧ t.fc.queues.walker = s.fc.queues.walker ++
                [{ purpose := .sealManifest, addr := (s.staging w).base, len := 8192, cls := .walker, live := true }]))

/-- STAGE-CLOSE (R187): carried out in every state of the window, which becomes FREE with every field at its FREE value;
answered DONE; the flash is not changed, no window but the closed one changes its state, and no SEAL_DONE is posted. A
SEALING window's seal is cancelled wherever it stands (R40, R72, R175): the seal request list no longer names the window,
nor does the seal check record, but for a cancelled one whose key job is dropped and still in the engine; a running
manifest READ loses its requester; the seal queue is the one without the window, the job that of its head, and neither a
record nor IN FLIGHT nor a cache entry is the window's (of a record in flight: where no seal group check is in the WAIT_GROUP
list, since one waits there only while it is itself IN FLIGHT, R171). -/
def Obligations.StageCloseFreesWindow : Prop :=
  ∀ (s : State) (p : PortId) (window : Byte), s.formatterReady p = true →
    (1 < window.toNat → exec (.stageClose p window) s = .next (s.answering p (refusedResponse .range)))
    ∧ ∀ w : StagingId, window.toNat = w.val →
      ∃ t, exec (.stageClose p window) s = .next t
        ∧ t.staging w = { state := .free, tag := 0, slot := none, base := 0, sizePages := 0, written := false,
                          warned := false, reason := .none, firstBad := none, checked := 0, digests := [] }
        ∧ (∀ v, v ≠ w → (t.staging v).state = (s.staging v).state)
        ∧ (∀ g, (t.image g).state = (s.image g).state)
        ∧ (t.port p).frame = .responding ∧ (t.port p).response = doneResponse []
        ∧ t.flash = s.flash ∧ t.ots = s.ots
        ∧ (∀ q, (t.port q).events.getLsbD 5 = (s.port q).events.getLsbD 5)
        ∧ ((s.staging w).state = .sealing →
            w ∉ t.mu.sealRequests
            ∧ (∀ k, t.mu.sealCheck = some k → k.win ≠ w ∨ k.cancelled = true)
            ∧ (∀ k c, s.mu.sealCheck = some k → k.win = w → k.cancelled = false → k.phase = .read → s.fc.port = .op c →
                c.req.purpose = .sealManifest →
                t.fc.port = .op { c with req := { c.req with live := false } })
            ∧ (∀ k j ph, s.mu.sealCheck = some k → k.win = w → k.cancelled = false → k.phase = .sign → k.waitingJob = none →
                s.sealJobQueued w = false → s.ke.current = some (j, ph) → j.source = .sealCheck w →
                t.ke.current = some ({ j with dropped := true }, ph)
                ∧ t.mu.sealCheck = some { k with cancelled := true })
            ∧ (∀ k, s.mu.sealCheck = some k → k.win = w → k.cancelled = false → k.phase = .sign → k.waitingJob = none →
                s.sealJobQueued w = true → ∀ j ∈ t.ke.queue, j.source ≠ .sealCheck w)
            ∧ (∀ j rest, s.sw.job = some j → j.handover.win = w → s.sw.sealQueue = j.handover :: rest →
                (∀ h ∈ rest, h.win ≠ w) →
                t.sw.sealQueue = rest ∧ t.sw.job.map (·.handover) = rest.head?
                ∧ (∀ i r, s.sw.inFlight = .record (.staging w) i → s.record (.staging w) i = some r →
                    GroupWaiter.sealCheck ∉ s.iu.waitGroup → t.record (.staging w) i = none ∧ t.sw.inFlight ≠ .record (.staging w) i)
                ∧ (s.sw.inFlight = .groupCheck → rest = [] →
                    t.sw.inFlight ≠ .groupCheck ∧ GroupWaiter.sealCheck ∉ t.iu.waitGroup))
            ∧ (∀ j, s.sw.job = some j → j.handover.win ≠ w →
                t.sw.sealQueue = s.sw.sealQueue.filter (fun h => h.win != w)
                ∧ t.sw.job.map (·.handover) = some j.handover)
            ∧ (s.iu.waitGroup = [] → ∀ g, t.entryOf (.staging w, g) = none))

/-- COMMIT (R189): its tests in order; a VERSION equal to the floor is answered DONE at the take; a greater one makes the
command EXECUTING, with the row write started on an idle store and queued behind a running one. -/
def Obligations.CommitQueuesFloor : Prop :=
  ∀ (s : State) (p : PortId) (tag : Byte), s.formatterReady p = true →
    (7 < tag.toNat → exec (.commit p tag) s = .next (s.answering p (refusedResponse .range)))
    ∧ ∀ t : Tag, tag.toNat = t.val →
      (((s.image t).state ≠ .accepted ∨ (s.image t).good ≠ (s.image t).pageCount
          ∨ ∀ q, (s.image t).owner = some q → (s.life q).state ≠ .confirmed) →
        exec (.commit p tag) s = .next (s.answering p (refusedResponse .state)))
      ∧ ∀ q : PortId, (s.image t).state = .accepted → (s.image t).good = (s.image t).pageCount →
        (s.image t).owner = some q → (s.life q).state = .confirmed →
        ((s.image t).version ≠ s.floorOf t → 24 ≤ (s.ots.floors[t]).length →
          exec (.commit p tag) s = .next (s.answering p (refusedResponse .exhausted)))
        ∧ ((s.image t).version = s.floorOf t →
          exec (.commit p tag) s = .next (s.answering p (doneResponse (leBytes 2 (s.floorOf t)))))
        ∧ ∀ row : RowWrite, s.floorOf t < (s.image t).version → (s.ots.floors[t]).length < 24 →
          row = { row := .floor t (s.image t).version, source := some (p, 0x16) } →
          (s.ots.running = none → s.ots.queue = [] →
            exec (.commit p tag) s = .next
              ({ s with ots := { s.ots with running := some row } }.modPort p (fun u => u.executing 0x16)))
          ∧ (s.ots.running.isSome = true →
            exec (.commit p tag) s = .next
              ({ s with ots := { s.ots with queue := s.ots.queue ++ [row] } }.modPort p (fun u => u.executing 0x16)))

/-! ## The one-time store (chapter 11) -/

/-- REVOKE (R194): SERIAL 0 is refused with RANGE, a serial that an ACCEPTED window has with GUARD; one already in the list
is answered DONE at once; with all 24 rows written it is refused with FULL; otherwise, on an idle store, its row write
starts and the command is EXECUTING. -/
def Obligations.RevokeQueuesRow : Prop :=
  ∀ (s : State) (p : PortId) (serial : Serial), s.formatterReady p = true →
    (serial = 0 → exec (.revoke p serial) s = .next (s.answering p (refusedResponse .range)))
    ∧ (serial ≠ 0 → (∃ t, (s.image t).state = .accepted ∧ (s.image t).serial = serial) →
        exec (.revoke p serial) s = .next (s.answering p (refusedResponse .guard)))
    ∧ (serial ≠ 0 → (∀ t, (s.image t).state = .accepted → (s.image t).serial ≠ serial) →
        (serial ∈ s.ots.revoked → exec (.revoke p serial) s = .next (s.answering p (doneResponse [])))
        ∧ (serial ∉ s.ots.revoked → 24 ≤ s.ots.revoked.length →
            exec (.revoke p serial) s = .next (s.answering p (refusedResponse .full)))
        ∧ (serial ∉ s.ots.revoked → s.ots.revoked.length < 24 → s.ots.running = none → s.ots.queue = [] →
            exec (.revoke p serial) s = .next
              ({ s with ots := { s.ots with running := some { row := .revocation serial, source := some (p, 0x17) } } }.modPort
                p (fun u => u.executing 0x17))))

/-- RETIRE-ROOT (R193): an index above 3 is refused with RANGE, a slot that is not LIVE (key row WRITTEN, retire row BLANK)
with STATE, the last LIVE slot with GUARD; otherwise, on an idle store, its row write starts and the command is
EXECUTING. -/
def Obligations.RetireRootQueuesRow : Prop :=
  ∀ (s : State) (p : PortId) (rootIndex : Byte), s.formatterReady p = true →
    (3 < rootIndex.toNat → exec (.retireRoot p rootIndex) s = .next (s.answering p (refusedResponse .range)))
    ∧ ∀ r : Fin 4, rootIndex.toNat = r.val →
      (((s.ots.rootKeys[r]) = none ∨ (s.ots.retired[r]) = true) →
        exec (.retireRoot p rootIndex) s = .next (s.answering p (refusedResponse .state)))
      ∧ ((s.ots.rootKeys[r]).isSome = true → (s.ots.retired[r]) = false →
          ((∀ q : Fin 4, q ≠ r → (s.ots.rootKeys[q]) = none ∨ (s.ots.retired[q]) = true) →
            exec (.retireRoot p rootIndex) s = .next (s.answering p (refusedResponse .guard)))
          ∧ ((∃ q : Fin 4, q ≠ r ∧ (s.ots.rootKeys[q]).isSome = true ∧ (s.ots.retired[q]) = false) →
              s.ots.running = none → s.ots.queue = [] →
            exec (.retireRoot p rootIndex) s = .next
              ({ s with ots := { s.ots with running := some { row := .retire r, source := some (p, 0x18) } } }.modPort p
                (fun u => u.executing 0x18))))

/-- PROVISION (R197) from the formatter's port: its tests in order, and the row writes it queues: the key rows of the slots
that are EMPTY in ascending order, then the config row; the first of them starts on an idle store. The config record is
admitted exactly where the eight conditions of R192 hold of its bytes, and is refused with RANGE otherwise. -/
def Obligations.ProvisionQueuesRows : Prop :=
  (∀ config : List Byte, configValid config = true ↔ ConfigAdmitted config)
  ∧ ∀ (s : State) (p : PortId) (config : List Byte) (keys : List Key),
    s.ready p = true → s.formatterPort = some p → (Instr.provision p config keys).wf = true →
    (s.ots.config.isSome = true →
      exec (.provision p config keys) s = .next (s.answering p (refusedResponse .state)))
    ∧ (s.ots.config = none → configValid config = false →
      exec (.provision p config keys) s = .next (s.answering p (refusedResponse .range)))
    ∧ (s.ots.config = none → configValid config = true →
        ((∃ (r : Fin 4) (key : Key), keys[r.val]? = some key ∧ (s.ots.rootKeys[r] ≠ none ∨ s.ots.retired[r] = true)
            ∧ (s.ots.retired[r] = true ∨ s.ots.rootKeys[r] ≠ some key)) →
          exec (.provision p config keys) s = .next (s.answering p (refusedResponse .state)))
        ∧ ((∀ (r : Fin 4) (key : Key), keys[r.val]? = some key → s.ots.retired[r] = false ∧
              (s.ots.rootKeys[r] = none ∨ s.ots.rootKeys[r] = some key)) →
            s.ots.running = none → s.ots.queue = [] →
          ∃ first rest, first :: rest
              = (((List.finRange 4).filterMap (fun r => (keys[r.val]?).bind (fun key =>
                    if s.ots.rootKeys[r] = none then some (RowContent.rootKey r key) else none)))
                  ++ [RowContent.config config]).map (fun row => { row := row, source := some (p, 0x19) })
            ∧ exec (.provision p config keys) s = .next
                ({ s with ots := { s.ots with running := some first, queue := rest } }.modPort p
                  (fun u => u.executing 0x19))))

/-- A row write completes on an idle queue (R19, R191, R193, R194, R195): a revocation or floor row is added behind the
written ones, a root is RETIRED, and the waiting command is answered DONE; a key row is written and the next queued
write starts; the config row is written and the part restarts with cause COMMAND (R197). A write that was running at a part
restart completes after it (R162, R191): its row is WRITTEN, no command is left to answer, and the load of the rows may
end. -/
def Obligations.RowWriteCompletes : Prop :=
  (∀ (s : State) (w : RowWrite), s.loaded = false → s.ots.running = some w →
    ∃ u, exec .rowWriteComplete s = .next u ∧ u.ots.running = none ∧ u.ots.queue = s.ots.queue ∧ u.loaded = false
      ∧ (∀ serial, w.row = .revocation serial → s.ots.revoked.length < 24 →
          u.ots = { s.ots with revoked := s.ots.revoked ++ [serial], running := none })
      ∧ (∀ t v, w.row = .floor t v → (s.ots.floors[t]).length < 24 →
          u.ots = { s.ots with floors := s.ots.floors.set t (s.ots.floors[t] ++ [v]), running := none })
      ∧ (∀ r, w.row = .retire r → u.ots = { s.ots with retired := s.ots.retired.set r true, running := none })
      ∧ (∀ r key, w.row = .rootKey r key → s.ots.rootKeys[r] = none →
          u.ots = { s.ots with rootKeys := s.ots.rootKeys.set r (some key), running := none })
      ∧ (∀ config, w.row = .config config → s.ots.config = none →
          u.ots = { s.ots with config := some config, running := none })
      ∧ { u with ots := s.ots, lc := s.lc, pu := s.pu, ports := s.ports } = s
      ∧ u.lc = { s.lc with ports := u.lc.ports }
      ∧ (∀ q, u.port q = { s.port q with events := (u.port q).events, holdoff := (u.port q).holdoff }))
  ∧ ∀ (s : State) (p : PortId) (code : Byte), s.loaded = true → s.noneDeferred = true →
    (s.port p).frame = .executing code →
    (∀ serial : Serial, s.ots.queue = [] → s.ots.running = some { row := .revocation serial, source := some (p, code) } →
      s.ots.revoked.length < 24 →
      exec .rowWriteComplete s = .next
        ({ s with ots := { s.ots with revoked := s.ots.revoked ++ [serial], running := none },
                  mu := { s.mu with filter := s.mu.filter ||| (1#64 <<< filterIndex serial) } }.modPort p (fun u =>
          { u with frame := .responding, response := doneResponse [], stream := none })))
    ∧ (∀ (t : Tag) (v : Nat), s.ots.queue = [] → s.ots.running = some { row := .floor t v, source := some (p, code) } →
      (s.ots.floors[t]).length < 24 →
      ∃ u, exec .rowWriteComplete s = .next u
        ∧ u = { s with ots := { s.ots with floors := s.ots.floors.set t (s.ots.floors[t] ++ [v]), running := none } }.modPort p
            (fun u => { u with frame := .responding, response := doneResponse (leBytes 2 v), stream := none })
        ∧ u.floorOf t = v)
    ∧ (∀ r : Fin 4, s.ots.queue = [] → s.ots.running = some { row := .retire r, source := some (p, code) } →
      exec .rowWriteComplete s = .next
        ({ s with ots := { s.ots with retired := s.ots.retired.set r true, running := none } }.modPort p (fun u =>
          { u with frame := .responding, response := doneResponse [], stream := none })))
    ∧ (∀ (r : Fin 4) (key : Key) (next : RowWrite) (rest : List RowWrite), s.ots.queue = next :: rest →
      s.ots.running = some { row := .rootKey r key, source := some (p, code) } → s.ots.rootKeys[r] = none →
      exec .rowWriteComplete s = .next
        { s with ots := { s.ots with rootKeys := s.ots.rootKeys.set r (some key), running := some next, queue := rest } })
    ∧ (∀ config : List Byte, s.ots.running = some { row := .config config, source := some (p, code) } →
      s.ots.config = none →
      ∃ u, exec .rowWriteComplete s = .next u ∧ u.ots.config = some config ∧ u.loaded = false
        ∧ u.lc.cause = .command ∧ u.lc.causePort = none ∧ u.fc.step = s.fc.step ∧ (∀ q, u.hold q = true))

/-! ## Resets, load and lifecycle (chapter 8, 11.1) -/

/-- A power-on reset (R125, R126, R149, R163): every block takes its reset condition; the written rows stay, and the flash
keeps every byte outside a program page or sector whose PROGRAM or ERASE was under way. PORT STATE reads as the load of
the rows will give it: HELD for a port with a ROLE in a WRITTEN config row, else UNUSED. Of `State.reset`, the clock
step 0 and the image windows before the load are the model's choice (log entry 15), and so is that the flash RESET is
issued at the reset itself (log entry 10); the level of the select inputs is not the part's to reset (log entry 16). -/
def Obligations.PowerOnResetsBlocks : Prop :=
  ∀ s : State, ∃ t, exec .powerOnReset s = .next t
    ∧ t = { State.reset with flash := t.flash, freeCount := t.freeCount, ots := { s.ots with queue := [], running := none },
                             lc := { State.reset.lc with ports := Vector.ofFn s.ots.initialLife },
                             ports := s.ports.map (fun u => { PortUnit.reset with selectActive := u.selectActive }),
                             pending := s.pending }
    ∧ s.sameFlashOutside t s.spansUnderWay
    ∧ (∀ p, t.hold p = true ∧ (t.port p).frame = .idle ∧ (t.port p).e = 0 ∧ (t.port p).events = 0
        ∧ (t.port p).mask = 0x7F ∧ (t.port p).holdoff = none ∧ (t.port p).violation = Violation.empty
        ∧ (t.port p).background = none)
    ∧ (∀ p, (∀ bytes, s.ots.config = some bytes → ((configOfBytes bytes).ports[p]).role.isSome = true →
          (t.life p).state = .held)
        ∧ ((∀ bytes, s.ots.config = some bytes → ((configOfBytes bytes).ports[p]).role = none) →
          (t.life p).state = .unused))
    ∧ t.fc.timeout = TimeoutRecord.empty ∧ t.lc.cause = .powerOn ∧ t.pu.printEn = false ∧ t.pu.latch = false

/-- RESTART (R122, R123, R149, R162, R163): the part restarts with cause COMMAND and no response; the clock step and the
timeout record are kept, a running row write goes on without its command, queued ones are dropped, and every HOLD is
asserted. What `State.reset` gives before the load where the spec states nothing is the model's choice (log entry 15),
and so are the RESET issued at the restart itself (log entry 10) and the level of select that is kept (log entry 16). -/
def Obligations.RestartKeepsStore : Prop :=
  ∀ (s : State) (p : PortId), s.formatterReady p = true →
    ∃ t, exec (.restart p) s = .next t
      ∧ t = { State.reset with
          flash := t.flash, freeCount := t.freeCount
          ots := { s.ots with queue := [], running := s.ots.running.map (fun w => { w with source := none }) }
          fc := { FlashCtl.reset with step := s.fc.step, timeout := s.fc.timeout }
          lc := { State.reset.lc with ports := Vector.ofFn s.ots.initialLife, cause := .command, causePort := none }
          ports := t.ports, pending := s.pending }
      ∧ (∀ q, t.port q = { PortUnit.reset with selectActive := (s.port q).selectActive || q == p })
      ∧ s.sameFlashOutside t s.spansUnderWay
      ∧ (∀ q, t.hold q = true)

/-- The store has loaded its rows (R2, R19, R41, R123, R148, R191, R196). A BLANK config row puts the part into factory
state with port 0 released; a WRITTEN one is handed to the blocks, the windows of bound tags are CHECKING, and the
directory READ waits for the RESET to end, or starts on a flash that is free because the RESET has ended before the load
(log entry 10). That a load already made, or one that waits for a row write, is no event is the model's choice (log
entry 7), and so is the flag of a select that carries no frame (log entry 16). -/
def Obligations.StoreLoaded : Prop :=
  ∀ s : State,
    (s.loaded = false → s.ots.running = none → s.ots.config = none →
      ∃ t, exec .otsLoadComplete s = .next t ∧ t.factory = true ∧ t.hold 0 = false ∧ t.formatterPort = some 0
        ∧ (t.port 0).ignoring = (s.port 0).selectActive ∧ t.mu.filter = filterOf s.ots.revoked
        ∧ { t with loaded := s.loaded, cfg := s.cfg, fc := s.fc, mu := s.mu, pu := s.pu, ports := s.ports } = s)
    ∧ (∀ bytes (r : FlashRequest), s.loaded = false → s.ots.running = none → s.ots.config = some bytes →
        s.fc.erase = .none → (s.fc.port = .reset .first ∨ (s.fc.port = .idle ∧ s.fc.noneWaiting = true)) →
        r = { purpose := .directory, addr := 0, len := 2048, cls := .walker, live := true } →
      ∃ t, exec .otsLoadComplete s = .next t ∧ t.loaded = true ∧ t.cfg = some (configOfBytes bytes)
        ∧ t.wu.image = (configOfBytes bytes).tags.map loadedWindow
        ∧ (∀ p, t.life p = loadedLife (configOfBytes bytes) p)
        ∧ (s.lc.cause = .powerOn → t.fc.step = (configOfBytes bytes).dMin)
        ∧ (s.lc.cause ≠ .powerOn → t.fc.step = max s.fc.step (configOfBytes bytes).dMin)
        ∧ t.mu.filter = filterOf s.ots.revoked ∧ t.mu.walker.phase = .directory
        ∧ (s.fc.port = .reset .first → t.fc.queues.walker = s.fc.queues.walker ++ [r])
        ∧ (s.fc.port = .idle → t.fc.port = r.started t.fc.step))
    ∧ (s.loaded = true ∨ s.ots.running.isSome = true → exec .otsLoadComplete s = .next s)

/-- HOLD is asserted exactly when the port is UNUSED, HELD, PREFETCH or FAULTED, except port 0 in factory state, and on
every port until the rows are loaded (R149). -/
def Obligations.HoldFollowsPortState : Prop :=
  ∀ (s : State) (p : PortId),
    (s.loaded = true →
      (s.hold p = true ↔
        ((s.life p).state = .unused ∨ (s.life p).state = .held ∨ (s.life p).state = .prefetch
          ∨ (s.life p).state = .faulted) ∧ ¬ (s.factory = true ∧ p = 0)))
    ∧ (s.loaded = false → s.hold p = true)

/-- The release of a PREFETCH port (R151 to R154), at each evaluation of its condition and at the end of the page READ that
completes its boot set. With the whole boot set held, no page of it BAD and every check-before-release window ACCEPTED
with all its pages GOOD, the port enters RUNNING: E 0, FRAME STATE IDLE, HELD PAGES empty, its slots no longer held, the
deadline timer started with DEADLINE × 100 ms or stopped for 0, HOLD released. Under on-fail HOLD a FAILED window faults
it instead. A check-before-release window that is REJECTED or FAILED faults it at once. Otherwise the port stays as it
is. -/
def Obligations.PortReleased : Prop :=
  ∀ (s : State) (p : PortId) (n : Nat),
    (s.life p).state = .prefetch → (s.life p).bootSet = some n →
    ((∃ t, (s.image t).owner = some p ∧ (s.image t).checkBeforeRelease = true
        ∧ ((s.image t).state = .rejected ∨ (s.image t).state = .failed)) →
      ((s.evalRelease p).life p).state = .faulted ∧ ((s.evalRelease p).life p).heldPages = [])
    ∧ ((∀ t, (s.image t).owner = some p → (s.image t).checkBeforeRelease = true →
          (s.image t).state ≠ .rejected ∧ (s.image t).state ≠ .failed) →
        ((s.life p).heldPages.length ≠ n
          ∨ (∃ t, (s.image t).owner = some p ∧ (s.image t).checkBeforeRelease = true
              ∧ ((s.image t).state ≠ .accepted ∨ (s.image t).good ≠ (s.image t).pageCount))
          ∨ (∃ t i, (s.life p).bootTag = some t ∧ i < n ∧ s.pageState t i = .bad)) →
        s.evalRelease p = s)
    ∧ ((s.life p).heldPages.length = n →
        (∀ t, (s.image t).owner = some p → (s.image t).checkBeforeRelease = true →
          (s.image t).state = .accepted ∧ (s.image t).good = (s.image t).pageCount) →
        (∀ t i, (s.life p).bootTag = some t → i < n → s.pageState t i ≠ .bad) →
        ((s.onFailHold p = true ∧ ∃ t, (s.image t).owner = some p ∧ (s.image t).checkBeforeRelease = false
            ∧ (s.image t).state = .failed) →
          ((s.evalRelease p).life p).state = .faulted ∧ ((s.evalRelease p).life p).heldPages = [])
        ∧ (∀ c, s.portConfig p = some c →
            (s.onFailHold p = false ∨ ∀ t, (s.image t).owner = some p → (s.image t).checkBeforeRelease = false →
              (s.image t).state ≠ .failed) →
          (s.evalRelease p).life p = { s.life p with
            state := .running, heldPages := [],
            deadline := if c.deadline = 0 then none else some (c.deadline * 100) }
          ∧ (∀ q, q ≠ p → (s.evalRelease p).life q = s.life q)
          ∧ ((s.evalRelease p).port p).e = 0 ∧ ((s.evalRelease p).port p).frame = .idle
          ∧ (∀ m, ((s.evalRelease p).bufferSlot m).heldFor ≠ some p)
          ∧ (s.loaded = true → (s.evalRelease p).hold p = false)))
    ∧ (∀ (c : CurrentOp) (bytes data : List Byte) (t : Tag) (i : Nat) (r : FillRecord) (lane : StreamLane) (m : Fin 64)
        (cf : PortConfig),
      s.fc.port = .op c → c.req.purpose = .page (.image t) i → c.req.live = true → s.record (.image t) i = some r →
      s.iu.lane = some lane → data = lane.now ++ s.arriving c bytes → s.pageDigest r = some (Config.digest data) →
      r.holdFor = some p → r.dest = .slot (some m) → s.noneDeferred = true → s.pb.prefetch = [] → s.loaded = true →
      (s.life p).bootTag = some t → (s.image t).owner = some p → s.portConfig p = some cf →
      i < n → i ∉ (s.life p).heldPages → (s.life p).heldPages.length + 1 = n → (∀ j, j < n → s.pageState t j ≠ .bad) →
      (∀ g, (s.image g).owner = some p → (s.image g).checkBeforeRelease = false ∧ (s.image g).state ≠ .failed) →
      ∃ u, exec (.pageReadEnd bytes) s = .next u
        ∧ u.life p = { s.life p with
            state := .running, heldPages := [],
            deadline := if cf.deadline = 0 then none else some (cf.deadline * 100) }
        ∧ (u.port p).e = 0 ∧ u.hold p = false ∧ (∀ m', (u.bufferSlot m').heldFor ≠ some p))

/-- A deadline expires (R156, R157): a stopped timer does not; action NONE changes only the timer; NOTICE posts DEADLINE to
the port and to the formatter's port and leaves every port state; SYSTEM restarts the part with cause DEADLINE. -/
def Obligations.DeadlineExpiryActs : Prop :=
  ∀ (s : State) (p : PortId),
    ((s.life p).deadline = none → exec (.deadlineExpiry p) s = .next s)
    ∧ ∀ (ms : Nat) (c : PortConfig), (s.life p).deadline = some ms → s.portConfig p = some c →
      (c.action = .none →
        exec (.deadlineExpiry p) s = .next (s.modLife p (fun l => { l with deadline := none })))
      ∧ (c.action = .notice →
        ∃ t, exec (.deadlineExpiry p) s = .next t
          ∧ (t.port p).events = (s.port p).events ||| 0x08
          ∧ (∀ f, s.formatterPort = some f → (t.port f).events = (s.port f).events ||| 0x08)
          ∧ { t with ports := s.ports } = s.modLife p (fun l => { l with deadline := none })
          ∧ (∀ q, q ≠ p → s.formatterPort ≠ some q → t.port q = s.port q))
      ∧ (c.action = .system →
        ∃ t, exec (.deadlineExpiry p) s = .next t ∧ t.loaded = false ∧ t.lc.cause = .deadline
          ∧ t.lc.causePort = some p ∧ t.fc.step = s.fc.step ∧ t.fc.timeout = s.fc.timeout
          ∧ (∀ q, t.hold q = true ∧ (t.life q).deadline = none))

/-- A deadline expires with action FALLBACK (R43, R72, R106, R158, R159, R188). Where the BOOT tag has fallen back already,
its other slot is not VALID or its window is not ACCEPTED, the port is FAULTED and FALLBACK-USED stays. Otherwise
FALLBACK-USED is set, DEADLINE is posted, the staging windows of the tag are DISCARDED, and the window's records, prefetch
entries, present pages and cache entries are gone and its page states UNCHECKED. Behind a walker at work, or where the
other slot's reason in the window is NONE, the port is HELD without a boot set, the window CHECKING with FORMER SLOT the
old slot and the fields of its manifest 0, and the RECHECK entry is queued or taken. An idle walker that finds another
reason rejects the window at once, and the port is FAULTED. Whether held or FAULTED, a RUNNING port's frame under way ends (R127):
one not taken is discarded, a command goes on in BACKGROUND, a READ is abandoned, leaves its waiter set and drops its pin, which
no other step of the fallback touches where ports and fills keep to their slots (R50, R83, R99). That the window so rejected
keeps MAP RANGE at the old range is the model's choice (log entry 31). -/
def Obligations.FallbackActs : Prop :=
  ∀ (s : State) (p : PortId) (ms : Nat) (c : PortConfig) (t : Tag),
    (s.life p).deadline = some ms → s.portConfig p = some c → c.action = .fallback → (s.life p).bootTag = some t →
    ((s.lc.fallbackUsed[t] = true ∨ (s.image t).state ≠ .accepted
        ∨ (∀ x, (s.image t).slot = some x → s.slotValid t x.other = false)) →
      ∃ u, exec (.deadlineExpiry p) s = .next u ∧ (u.life p).state = .faulted ∧ (u.life p).deadline = none
        ∧ u.lc.fallbackUsed = s.lc.fallbackUsed ∧ (u.port p).events.getLsbD 3 = true
        ∧ ((s.life p).state = .running → s.frameEnded u p
          ∧ ∀ st n, (s.port p).frame = .responding → (s.port p).stream = some st → st.serve = .slot n →
              s.pb.prefetch = [] → s.fc.port ≠ .idle → (u.bufferSlot n).pins = (s.bufferSlot n).pins - 1))
    ∧ (∀ x, s.lc.fallbackUsed[t] = false → (s.image t).state = .accepted → (s.image t).slot = some x →
        s.slotValid t x.other = true →
      ∃ u, exec (.deadlineExpiry p) s = .next u
        ∧ u.lc.fallbackUsed = s.lc.fallbackUsed.set t true
        ∧ ((u.life p).state = .held ∨ (u.life p).state = .faulted) ∧ (u.life p).deadline = none
        ∧ (u.port p).events.getLsbD 3 = true ∧ s.frameEnded u p
        ∧ ((u.image t).state = .checking ∨ (u.image t).state = .rejected)
        ∧ (∀ w, (s.staging w).fallsBack t = true →
            (u.staging w).state = .discarded ∧ (u.staging w).reason = .discarded)
        ∧ (∀ w, (s.staging w).fallsBack t = false → (u.staging w).state = (s.staging w).state)
        ∧ ((∀ q i, s.serving q ≠ some (.stallOrigin t i)) →
            (∀ i, u.record (.image t) i = none ∧ u.present t i = none)
            ∧ (∀ st n, (s.port p).frame = .responding → (s.port p).stream = some st → st.serve = .slot n →
                s.StreamsOwn → s.fc.port ≠ .idle → (u.bufferSlot n).pins = (s.bufferSlot n).pins - 1)
            ∧ (∀ e ∈ u.pb.prefetch, e.2.1 ≠ t)
            ∧ (∀ g, u.entryOf (.image t, g) = none)
            ∧ (∀ range, (s.image t).range = some range → ∀ i, i < range.length → u.pageState t i = .unchecked)
            ∧ ((s.mu.walker.phase ≠ .idle ∨ (s.mu.tagQueue = [] ∧ (s.image t).reason x.other = .none)) →
                u.image t = { s.image t with
                  state := .checking, former := some x, slot := none, version := 0, serial := 0, pageCount := 0,
                  pageBase := 0, groupBase := 0, good := 0, bad := 0, cursor := 0, touched := false, digests := [] }
                ∧ u.life p = { s.life p with state := .held, bootSet := none, heldPages := [], deadline := none })
            ∧ (s.mu.walker.phase ≠ .idle →
                u.mu.tagQueue = s.mu.tagQueue ++ [(t, .recheck)] ∧ u.mu.walker = s.mu.walker)
            ∧ (s.mu.walker.phase = .idle → s.mu.tagQueue = [] →
                u.mu.tagQueue = []
                ∧ ((s.image t).reason x.other = .none → u.mu.walker.entry = some (t, .recheck))
                ∧ ((s.image t).reason x.other ≠ .none → (s.image t).owner = some p →
                    (u.image t).state = .rejected ∧ (u.image t).slot = none ∧ (u.image t).former = some x
                    ∧ (u.image t).range = (s.image t).range ∧ (u.life p).state = .faulted))))

/-! ## The walk and the key engine (chapter 2) -/

/-- The directory READ ends (R2, R3, R5, R21, R22): the view is made from the bytes the flash delivered, or every slot is
NO_DIRECTORY when the READ ends FAULT, the magic is wrong or the count is above 8, and each window gets its two reasons
from it. The tag queue takes the tags bound to a port in three groups, ascending in each: those of a port whose BOOT tag
has check-before-release, then print-required ones, then the rest. The walker takes the first of them with a VALID slot;
those before it are REJECTED, those behind it wait; with none all are REJECTED. A usable directory is judged entry by entry
against FLASH SECTORS of the config record, as `DirectoryJudged` spells it (R3, R4). That SLOT SIZE and both base sectors of
an unusable directory's records are 0 is the model's choice (log entry 28). -/
def Obligations.DirectoryViewMade : Prop :=
  (∀ (sectors : Nat) (bytes : List Byte), fieldAt bytes 0 4 = 0x44474654 → fieldAt bytes 4 1 ≤ 8 →
    DirectoryJudged sectors bytes (judgeDirectory sectors bytes))
  ∧ ∀ (s : State) (c : CurrentOp), s.noneDeferred = true → c.req.purpose = .directory →
    (∀ bytes, s.fc.port = .op c →
      ∃ t, exec (.directoryReadEnd (.complete bytes)) s = .next t
        ∧ t.mu.view = some (judgeDirectory s.flashSectors (s.arriving c bytes))
        ∧ (∀ cf : ConfigRecord, s.cfg = some cf → s.flashSectors = cf.flashSectors)
        ∧ (fieldAt (s.arriving c bytes) 0 4 ≠ 0x44474654 ∨ 8 < fieldAt (s.arriving c bytes) 4 1 →
            t.mu.view = some (Vector.replicate 8 (DirectoryRecord.absent .noDirectory)))
        ∧ (∀ g : Tag, (t.image g).reasonA = ((judgeDirectory s.flashSectors (s.arriving c bytes))[g]).reasonA
            ∧ (t.image g).reasonB = ((judgeDirectory s.flashSectors (s.arriving c bytes))[g]).reasonB)
        ∧ (∀ (cf : ConfigRecord) (rank : Tag → Nat) (l : List Tag), s.cfg = some cf →
            (∀ g, ((∃ h : Tag, (cf.tags[h]).bound = (cf.tags[g]).bound ∧ (cf.tags[h]).boot = true
                  ∧ (cf.tags[h]).checkBeforeRelease = true) → rank g = 1)
              ∧ ((∀ h : Tag, (cf.tags[h]).bound = (cf.tags[g]).bound → (cf.tags[h]).boot = true →
                  (cf.tags[h]).checkBeforeRelease = false) → rank g = if (cf.tags[g]).printRequired then 2 else 3)) →
            (∀ g : Tag, g ∈ l ↔ (cf.tags[g]).bound.isSome = true) →
            l.Pairwise (fun g h => rank g < rank h ∨ (rank g = rank h ∧ g < h)) →
            (∀ pre g post, l = pre ++ g :: post →
              (∀ h ∈ pre, (t.image h).reasonA ≠ .none ∧ (t.image h).reasonB ≠ .none) →
              ((t.image g).reasonA = .none ∨ (t.image g).reasonB = .none) →
              t.mu.walker.entry = some (g, .first) ∧ t.mu.tagQueue = post.map (fun h => (h, .first))
              ∧ (∀ h ∈ pre, (t.image h).state = .rejected)
              ∧ (t.image g).state = (s.image g).state ∧ (∀ h ∈ post, (t.image h).state = (s.image h).state))
            ∧ ((∀ h ∈ l, (t.image h).reasonA ≠ .none ∧ (t.image h).reasonB ≠ .none) →
              t.mu.tagQueue = [] ∧ t.mu.walker.phase = .idle ∧ ∀ h ∈ l, (t.image h).state = .rejected)))
    ∧ (s.fc.port = .reset (.failRead c) →
      ∃ t, exec (.directoryReadEnd .fault) s = .next t
        ∧ t.mu.view = some (Vector.replicate 8 (DirectoryRecord.absent .noDirectory))
        ∧ (∀ g : Tag, (t.image g).reasonA = .noDirectory ∧ (t.image g).reasonB = .noDirectory)
        ∧ t.mu.tagQueue = [] ∧ t.mu.walker.phase = .idle
        ∧ (∀ (cf : ConfigRecord) (g : Tag), s.cfg = some cf → (cf.tags[g]).bound.isSome = true →
            (t.image g).state = .rejected))

/-- A probe ends (R23): after slot A's the other slot is probed; after slot B's the higher probe VERSION is read first,
slot A on equal ones. -/
def Obligations.ProbeOrdersSlots : Prop :=
  ∀ (s : State) (c : CurrentOp) (bytes : List Byte) (t : Tag) (k : EntryKind),
    s.calm = true → s.fc.port = .op c → s.mu.walker.entry = some (t, k) →
    (c.req.purpose = .probe .a →
      ∃ u, exec (.probeReadEnd (.complete bytes)) s = .next u
        ∧ u.mu.walker.probeA = some (fieldAt (s.arriving c bytes) 8 2)
        ∧ u.fc.port = FlashRequest.started
            { purpose := .probe .b, addr := s.slotAddr t .b, len := 2048, cls := .walker, live := true } s.fc.step)
    ∧ (∀ (a : Nat) (x : SlotId), c.req.purpose = .probe .b → s.mu.walker.probeA = some a →
        x = (if fieldAt (s.arriving c bytes) 8 2 ≤ a then .a else .b) →
      ∃ u, exec (.probeReadEnd (.complete bytes)) s = .next u
        ∧ u.mu.walker.candidates = [x, x.other] ∧ u.mu.walker.phase = .read
        ∧ u.fc.port = FlashRequest.started
            { purpose := .walkerManifest, addr := s.slotAddr t x, len := 8192, cls := .walker, live := true } s.fc.step)

/-- The walker's manifest READ ends (R24, R25, R28, R32). A candidate that passes checks 1 to 8 has its key job submitted.
One that fails has its reason written: the next candidate is read, and after the last one the window is REJECTED. The
answer of the checks, for a walker and for a seal candidate, is that of the first condition that holds in the order of R25,
with those of R8, R9, R20 and R27, on the manifest's fields at their offsets. -/
def Obligations.CandidateChecked : Prop :=
  (∀ (s : State) (b : List Byte) (t : Tag) (x : SlotId) (walk : Option EntryKind),
    FirstHolding (s.candidateConditions b t x walk) (s.candidateCheck (manifestOfBytes b) t x walk))
  ∧ ∀ (s m : State) (c : CurrentOp) (bytes : List Byte) (t : Tag) (k : EntryKind) (x : SlotId) (rest : List SlotId),
    s.calm = true → s.fc.port = .op c → c.req.purpose = .walkerManifest →
    s.mu.walker.entry = some (t, k) → s.mu.walker.candidates = x :: rest →
    m = s.fillBuffer (s.arriving c bytes) →
    (m.candidateCheck (manifestOfBytes m.mu.buffer) t x (some k) = .none → s.ke.current = none → s.ke.queue = [] →
      ∃ u, exec (.manifestReadEnd (.complete bytes)) s = .next u
        ∧ u.mu.walker.phase = .sign ∧ u.ke.current = some (keyJobOf m.mu.buffer .walker, .certificate)
        ∧ u.image t = s.image t)
    ∧ (∀ r y more, m.candidateCheck (manifestOfBytes m.mu.buffer) t x (some k) = r → r ≠ .none → rest = y :: more →
      ∃ u, exec (.manifestReadEnd (.complete bytes)) s = .next u
        ∧ (u.image t).reason x = r ∧ (u.image t).state = (s.image t).state ∧ u.mu.walker.candidates = rest
        ∧ u.fc.port = FlashRequest.started
            { purpose := .walkerManifest, addr := s.slotAddr t y, len := 8192, cls := .walker, live := true } s.fc.step)
    ∧ (∀ r, m.candidateCheck (manifestOfBytes m.mu.buffer) t x (some k) = r → r ≠ .none → rest = [] →
        (∀ e ∈ s.mu.tagQueue, e.1 ≠ t) →
      ∃ u, exec (.manifestReadEnd (.complete bytes)) s = .next u
        ∧ (u.image t).state = .rejected ∧ (u.image t).slot = none ∧ (u.image t).reason x = r)

/-- The certificate SIGCHECK of a walker candidate ends (R10, R29, R31, R32). A pass starts the manifest SIGCHECK and changes
nothing else. A first failure raises the clock step by one, up to D_MAX, and reads the manifest again: the READ is requested
at class WALKER, and starts on a free flash at the resulting step. A second failure writes CERT_SIGNATURE: with a further
candidate RE-READ is cleared and that one's manifest READ requested; after the last the tag is REJECTED. The result of
SIGCHECK is a free value: each clause holds for the result it names. -/
def Obligations.CertSigcheckDecides : Prop :=
  ∀ (s : State) (j : KeyJob) (t : Tag) (k : EntryKind) (x : SlotId) (rest : List SlotId),
    s.ke.current = some (j, .certificate) → j.dropped = false → j.source = .walker →
    s.mu.walker.entry = some (t, k) → s.mu.walker.candidates = x :: rest → (∀ e ∈ s.mu.tagQueue, e.1 ≠ t) →
    ∃ u, exec .certSigcheckEnd s = .next u
      ∧ (Config.sigCheck ((s.ots.rootKeys[j.rootIndex]).getD []) j.certDigest j.certSignature = true →
          u = { s with ke := { s.ke with current := some (j, .manifest) } })
      ∧ (Config.sigCheck ((s.ots.rootKeys[j.rootIndex]).getD []) j.certDigest j.certSignature = false →
          (s.mu.walker.reRead = false →
            u.mu.walker.reRead = true ∧ u.mu.walker.phase = .read ∧ u.mu.walker.candidates = x :: rest
              ∧ u.fc.step = (if s.fc.step < s.dTop then s.fc.step + 1 else s.fc.step)
              ∧ (∀ q : FlashRequest,
                  q = { purpose := .walkerManifest, addr := s.slotAddr t x, len := 8192, cls := .walker, live := true } →
                (s.fc.port ≠ .idle → q ∈ u.fc.queues.walker)
                ∧ (s.fc.port = .idle → s.fc.erase = .none → s.fc.noneWaiting = true → u.fc.port = q.started u.fc.step)))
          ∧ (∀ y more, s.mu.walker.reRead = true → rest = y :: more →
              (u.image t).reason x = .certSignature ∧ (u.image t).state = (s.image t).state
              ∧ u.mu.walker.candidates = rest ∧ u.mu.walker.reRead = false ∧ u.mu.walker.phase = .read
              ∧ u.fc.step = s.fc.step
              ∧ (∀ q : FlashRequest,
                  q = { purpose := .walkerManifest, addr := s.slotAddr t y, len := 8192, cls := .walker, live := true } →
                (s.fc.port ≠ .idle → q ∈ u.fc.queues.walker)
                ∧ (s.fc.port = .idle → s.fc.erase = .none → s.fc.noneWaiting = true → u.fc.port = q.started u.fc.step)))
          ∧ (s.mu.walker.reRead = true → rest = [] →
              (u.image t).state = .rejected ∧ (u.image t).reason x = .certSignature))

/-- The manifest SIGCHECK of a walker candidate ends (R11, R29, R31, R33, R34, R36, R143, R150), and with it the job. On a pass
the window is ACCEPTED with the fields of its manifest and empty counts, VERDICT is posted to the owner and to the
formatter's port, and a HELD owner takes its boot set from its BOOT window. Its MAP RANGE is new, from the lowest
unallocated entry, with every entry UNCHECKED; a recheck whose image fits the old range keeps that range and its entries.
On a first failure the manifest is read again, at class WALKER. A second failure writes MANIFEST_SIGNATURE: with a further
candidate RE-READ is cleared and that one's manifest READ requested; after the last the tag is REJECTED. The result of
SIGCHECK is a free value: each clause holds for the result it names. -/
def Obligations.ManifestSigcheckDecides : Prop :=
  ∀ (s : State) (j : KeyJob) (t : Tag) (k : EntryKind) (x : SlotId) (rest : List SlotId) (m : Manifest),
    s.ke.current = some (j, .manifest) → s.ke.queue = [] → j.dropped = false → j.source = .walker →
    s.mu.walker.entry = some (t, k) → s.mu.walker.candidates = x :: rest → (∀ e ∈ s.mu.tagQueue, e.1 ≠ t) →
    m = manifestOfBytes s.mu.buffer →
    ∃ u, exec .manifestSigcheckEnd s = .next u ∧ u.ke.current = none
      ∧ (Config.sigCheck j.subordinateKey j.manifestDigest j.signature = true →
          (u.image t).state = .accepted ∧ (u.image t).slot = some x ∧ (u.image t).version = m.version
          ∧ (u.image t).serial = m.serial ∧ (u.image t).pageCount = m.pageCount ∧ (u.image t).loadBase = m.loadBase
          ∧ (u.image t).pageBase = s.slotAddr t x + m.pageAreaOffset * 4096
          ∧ (u.image t).groupBase = s.slotAddr t x + 8192
          ∧ (u.image t).good = 0 ∧ (u.image t).bad = 0 ∧ (u.image t).reason x = .none
          ∧ (u.image t).digests = digestsAt s.mu.buffer 1096 (groupsOf m.pageCount)
          ∧ (∀ p, (s.image t).owner = some p → (u.port p).events.getLsbD 1 = true
              ∧ ∀ f, s.formatterPort = some f → (u.port f).events.getLsbD 1 = true)
          ∧ (∀ p, (s.image t).owner = some p → (s.life p).state = .held → (s.life p).bootTag = some t →
              (u.life p).bootSet = some m.bootSet)
          ∧ ((k = .first ∨ (s.image t).range = none ∨ ∃ r, (s.image t).range = some r ∧ r.length < m.pageCount) →
              (u.image t).range = some { start := s.wu.mapUsed, length := m.pageCount }
              ∧ u.wu.mapUsed = s.wu.mapUsed + m.pageCount
              ∧ ∀ i, i < m.pageCount → u.pageState t i = .unchecked)
          ∧ (∀ r, k = .recheck → (s.image t).range = some r → m.pageCount ≤ r.length →
              (u.image t).range = some r ∧ u.wu.mapUsed = s.wu.mapUsed ∧ ∀ i, u.pageState t i = s.pageState t i))
      ∧ (Config.sigCheck j.subordinateKey j.manifestDigest j.signature = false → s.mu.walker.reRead = false →
          u.mu.walker.reRead = true ∧ u.mu.walker.phase = .read ∧ (u.image t).state = (s.image t).state
            ∧ u.mu.walker.candidates = x :: rest
            ∧ u.fc.step = (if s.fc.step < s.dTop then s.fc.step + 1 else s.fc.step)
            ∧ (∀ q : FlashRequest,
                q = { purpose := .walkerManifest, addr := s.slotAddr t x, len := 8192, cls := .walker, live := true } →
              (s.fc.port ≠ .idle → q ∈ u.fc.queues.walker)
              ∧ (s.fc.port = .idle → s.fc.erase = .none → s.fc.noneWaiting = true → u.fc.port = q.started u.fc.step)))
      ∧ (Config.sigCheck j.subordinateKey j.manifestDigest j.signature = false → s.mu.walker.reRead = true →
          (u.image t).reason x = .manifestSignature
          ∧ (rest = [] → (u.image t).state = .rejected ∧ (u.image t).slot = none)
          ∧ (∀ y more, rest = y :: more →
              (u.image t).state = (s.image t).state ∧ u.mu.walker.candidates = rest ∧ u.mu.walker.reRead = false
              ∧ u.mu.walker.phase = .read ∧ u.fc.step = s.fc.step
              ∧ (∀ q : FlashRequest,
                  q = { purpose := .walkerManifest, addr := s.slotAddr t y, len := 8192, cls := .walker, live := true } →
                (s.fc.port ≠ .idle → q ∈ u.fc.queues.walker)
                ∧ (s.fc.port = .idle → s.fc.erase = .none → s.fc.noneWaiting = true → u.fc.port = q.started u.fc.step))))

/-- The hand-over of a boot set (R86, R96, R97, R150, R151). That it comes before the sweep's pick of the same step, so that no
sweep-made record meets it, is the model's choice (DESIGN CHOICE, log entry 11): 9.4's example allows the pick first. Where
the verdict ACCEPTED of its BOOT window makes a HELD port
PREFETCH, its boot-set pages, in ascending order, get PREFETCH records with HOLD FOR the port while fewer than 8 such
records exist, and the others wait in the prefetch list. At the hand-over a present page's slot is held for the port and
leaves the LRU list, a BAD page enters no list, and any other is appended. An entry of the list is served while fewer than
8 PREFETCH records exist: a present page is held and joins HELD PAGES, a BAD one faults the PREFETCH port, a DEMAND or
PREFETCH record takes HOLD FOR, a SWEEP record becomes PREFETCH besides, and without a record one is made. -/
def Obligations.BootSetHandedOver : Prop :=
  (∀ (s : State) (j : KeyJob) (t : Tag) (x : SlotId) (rest : List SlotId) (m : Manifest) (p : PortId) (made : Nat),
    s.ke.current = some (j, .manifest) → s.ke.queue = [] → j.dropped = false → j.source = .walker →
    s.mu.walker.entry = some (t, .first) → s.mu.walker.candidates = x :: rest → s.mu.tagQueue = [] →
    m = manifestOfBytes s.mu.buffer → Config.sigCheck j.subordinateKey j.manifestDigest j.signature = true →
    (s.image t).owner = some p → (s.life p).state = .held → (s.life p).bootTag = some t → 1 ≤ m.bootSet →
    m.bootSet ≤ m.pageCount →
    (∀ g, g ≠ t → (s.image g).owner = some p → (s.image g).checkBeforeRelease = true →
      (s.image g).state ≠ .rejected ∧ (s.image g).state ≠ .failed) →
    s.pb.prefetch = [] → (∀ i, s.record (.image t) i = none ∧ s.present t i = none) →
    (∀ q, s.serving q ≠ some (.stallChecking t)) → made = min m.bootSet (8 - s.recordCount .prefetch) →
    ∃ u, exec .manifestSigcheckEnd s = .next u
      ∧ u.life p = { s.life p with state := .prefetch, bootSet := some m.bootSet, heldPages := [] }
      ∧ (∀ i, i < made →
          ∃ r, u.record (.image t) i = some r ∧ r.cls = .prefetch ∧ r.origin = none ∧ r.sweepMade = false
            ∧ r.holdFor = some p ∧ r.waiters = []
            ∧ r.pageAddr = s.slotAddr t x + m.pageAreaOffset * 4096 + i * 4096)
      ∧ u.pb.prefetch = (List.range' made (m.bootSet - made)).map (fun i => (p, t, i)))
  ∧ (∀ (s : State) (p : PortId) (t : Tag) (i : Nat),
    (∀ n, s.present t i = some n →
      s.handOverPage p t i = (s.modSlot n (fun b => { b with heldFor := some p })).lruLeave n
      ∧ n ∉ (s.handOverPage p t i).pb.lru ∧ ((s.handOverPage p t i).bufferSlot n).heldFor = some p)
    ∧ (s.present t i = none → s.pageState t i = .bad → s.handOverPage p t i = s)
    ∧ (s.present t i = none → s.pageState t i ≠ .bad →
      s.handOverPage p t i = { s with pb := { s.pb with prefetch := s.pb.prefetch ++ [(p, t, i)] } }))
  ∧ (∀ (s u : State) (p : PortId) (t : Tag) (i : Nat), s.pb.prefetch = [(p, t, i)] → u = s.serveList →
    (8 ≤ s.recordCount .prefetch → u = s)
    ∧ (s.recordCount .prefetch < 8 →
      (∀ n, s.present t i = some n → (s.life p).state = .prefetch → i ∉ (s.life p).heldPages →
          (s.life p).bootSet ≠ some ((s.life p).heldPages.length + 1) →
          (∀ g, (s.image g).owner = some p → (s.image g).checkBeforeRelease = false) →
        (u.bufferSlot n).heldFor = some p ∧ n ∉ u.pb.lru ∧ u.pb.prefetch = []
        ∧ u.life p = { s.life p with heldPages := (s.life p).heldPages ++ [i] })
      ∧ (s.present t i = none → s.pageState t i = .bad → (s.life p).state = .prefetch → (u.life p).state = .faulted)
      ∧ (s.present t i = none → s.pageState t i ≠ .bad → u.pb.prefetch = []
        ∧ (∀ r, s.record (.image t) i = some r → r.cls ≠ .sweep →
            u.record (.image t) i = some { r with holdFor := some p } ∧ u.fc = s.fc)
        ∧ (∀ r, s.record (.image t) i = some r → r.cls = .sweep → r.dest = .scratch →
            ∃ r', u.record (.image t) i = some r' ∧ r'.cls = .prefetch ∧ r'.holdFor = some p ∧ r'.dest = .scratchThenSlot
              ∧ r'.sweepMade = r.sweepMade ∧ r'.waiters = r.waiters ∧ r'.origin = r.origin)
        ∧ (s.record (.image t) i = none →
            ∃ r', u.record (.image t) i = some r' ∧ r'.cls = .prefetch ∧ r'.holdFor = some p ∧ r'.waiters = []
              ∧ r'.origin = none ∧ r'.sweepMade = false))))

/-- The seal check. Its manifest READ ends (R38, R39, R186): a staged manifest that passes checks 1 to 7 has its group list
kept and its key job submitted to a free engine; one that fails makes the window SEAL_FAILED with the reason. Its key job
ends (R29 to R31, R39): a certificate that passes starts the manifest SIGCHECK; PASS hands the window to the sweep unit; a
first failure raises the clock step and reads the manifest again when the buffer is free; a second one makes the window
SEAL_FAILED with CERT_SIGNATURE or MANIFEST_SIGNATURE. A dropped job ends without its second SIGCHECK and without a
result, and the engine takes the next job, or the job that waited for it (R30, R40). The result of SIGCHECK is a free
value: each clause holds for the result it names. -/
def Obligations.SealManifestChecked : Prop :=
  (∀ (s m : State) (c : CurrentOp) (bytes : List Byte) (k : SealCheck) (r : Reason),
    s.fc.port = .op c → c.req.purpose = .sealManifest → c.req.live = true → s.mu.sealCheck = some k →
    s.noneDeferred = true → m = s.fillBuffer (s.arriving c bytes) →
    r = m.candidateCheck (manifestOfBytes m.mu.buffer) (s.staging k.win).tag ((s.staging k.win).slot.getD .a) none →
    (r = .none → s.ke.current = none → s.ke.queue = [] →
      ∃ u, exec (.sealManifestReadEnd (.complete bytes)) s = .next u
        ∧ (u.staging k.win).digests = digestsAt m.mu.buffer 1096 (groupsOf (manifestOfBytes m.mu.buffer).pageCount)
        ∧ (u.staging k.win).state = (s.staging k.win).state
        ∧ u.ke.current = some (keyJobOf m.mu.buffer (.sealCheck k.win), .certificate))
    ∧ (r ≠ .none →
      ∃ u, exec (.sealManifestReadEnd (.complete bytes)) s = .next u
        ∧ (u.staging k.win).state = .sealFailed ∧ (u.staging k.win).reason = r
        ∧ (u.staging k.win).firstBad = none ∧ (u.staging k.win).checked = 0 ∧ (u.staging k.win).digests = []
        ∧ (∀ f, s.formatterPort = some f → (u.port f).events.getLsbD 5 = true)))
  ∧ (∀ (s : State) (j : KeyJob) (k : SealCheck) (ph : SigPhase) (c : Instr) (pass : Bool),
    s.ke.current = some (j, ph) → s.ke.queue = [] → j.source = .sealCheck k.win → j.dropped = false →
    s.mu.sealCheck = some k → s.mu.sealRequests = [] → s.pb.prefetch = [] →
    ((ph = .certificate ∧ c = .certSigcheckEnd
        ∧ pass = Config.sigCheck ((s.ots.rootKeys[j.rootIndex]).getD []) j.certDigest j.certSignature)
      ∨ (ph = .manifest ∧ c = .manifestSigcheckEnd ∧ pass = Config.sigCheck j.subordinateKey j.manifestDigest j.signature)) →
    (ph = .certificate → pass = true → exec c s = .next { s with ke := { s.ke with current := some (j, .manifest) } })
    ∧ (ph = .manifest → pass = true →
      ∃ u, exec c s = .next u ∧ u.ke.current = none ∧ u.mu.sealCheck = none
        ∧ u.sw.sealQueue = s.sw.sealQueue
            ++ [{ win := k.win, pageCount := k.pageCount, pageAreaOffset := k.pageAreaOffset }]
        ∧ (u.staging k.win).state = (s.staging k.win).state ∧ (u.staging k.win).digests = (s.staging k.win).digests)
    ∧ (pass = false → k.reRead = false →
      ∃ u, exec c s = .next u ∧ u.ke.current = none ∧ u.staging k.win = s.staging k.win
        ∧ u.fc.step = (if s.fc.step < s.dTop then s.fc.step + 1 else s.fc.step)
        ∧ (s.mu.holder ≠ .none → u.mu.sealCheck = some { k with reRead := true, phase := .waitBuffer })
        ∧ (s.mu.holder = .none → s.mu.walker.phase ≠ .waitBuffer → s.fc.port ≠ .idle → s.fc.erase = .none →
            u.mu.sealCheck = some { k with reRead := true, phase := .read } ∧ u.mu.holder = .sealCheck
            ∧ { purpose := .sealManifest, addr := (s.staging k.win).base, len := 8192, cls := .walker, live := true }
                ∈ u.fc.queues.walker))
    ∧ (pass = false → k.reRead = true →
      ∃ u, exec c s = .next u ∧ u.ke.current = none ∧ u.mu.sealCheck = none
        ∧ (u.staging k.win).state = .sealFailed
        ∧ (u.staging k.win).reason = (if ph = .certificate then .certSignature else .manifestSignature)
        ∧ (u.staging k.win).firstBad = none ∧ (u.staging k.win).checked = 0 ∧ (u.staging k.win).digests = []
        ∧ (∀ f, s.formatterPort = some f → (u.port f).events.getLsbD 5 = true)))
  ∧ (∀ (s : State) (j : KeyJob) (k : SealCheck),
    s.ke.current = some (j, .certificate) → j.dropped = true → s.mu.sealCheck = some k → s.mu.sealRequests = [] →
    s.pb.prefetch = [] →
    ∃ u, exec .certSigcheckEnd s = .next u ∧ u.wu.staging = s.wu.staging
      ∧ (∀ next rest, s.ke.queue = next :: rest → u.ke.current = some (next, .certificate))
      ∧ (k.cancelled = true → u.mu.sealCheck = none ∧ (s.ke.queue = [] → u.ke.current = none))
      ∧ (∀ w, k.cancelled = false → k.waitingJob = some w → s.ke.queue = [] →
          u.ke.current = some (w, .certificate) ∧ u.mu.sealCheck = some { k with waitingJob := none }))

/-! ## Fills (chapters 4, 5) -/

/-- A group READ completes (R66, R73, R74, R77, R87, R103). A match makes the cache entry VALID with the delivered bytes,
whatever the sweep stream has in flight. A first mismatch raises the clock step and reads the group again. A second one
makes every page of the group BAD and an ACCEPTED window FAILED, which sets the latch for a print-required one; a FAILED
window stays FAILED. No page of the group is present any more, every record that claimed the entry is gone with its
FILLING slot, and its waiters are answered WITHHELD; the entry is FREE with its claims gone, or taken again for another
fill in the same step. Where a clause has conditions on waiting work, they say that no work which the step ends with
takes the entry again, or that no lifecycle action of the failed window ends a waiter's READ. -/
def Obligations.GroupCompared : Prop :=
  ∀ (s : State) (c : CurrentOp) (bytes : List Byte) (e : Fin 8) (k : GroupKey),
    s.fc.port = .op c → c.req.purpose = .group e → (s.entry e).state = .filling → (s.entry e).key = some k →
    s.noneDeferred = true →
    (s.heldDigest k = some (Config.digest (s.arriving c bytes)) → s.calm = true → s.iu.waitGroup = [] →
        s.sw.inFlight ≠ .none → s.sw.inFlight ≠ .groupCheck → 0 < (s.entry e).claims →
      ∃ u, exec (.groupReadEnd bytes) s = .next u
        ∧ u.entry e = { s.entry e with state := .valid, data := s.arriving c bytes } ∧ u.fc.step = s.fc.step)
    ∧ (s.heldDigest k = some (Config.digest (s.arriving c bytes)) → s.pb.prefetch = [] → s.iu.waitGroup = [] →
        (2 ≤ (s.entry e).claims ∨ ∃ x, (s.entry x).state = .free) →
      ∃ u, exec (.groupReadEnd bytes) s = .next u
        ∧ (u.entry e).state = .valid ∧ (u.entry e).key = some k ∧ (u.entry e).data = s.arriving c bytes
        ∧ u.fc.step = s.fc.step)
    ∧ (s.heldDigest k ≠ some (Config.digest (s.arriving c bytes)) → (s.entry e).reRead = false →
        s.calm = true → s.sw.inFlight ≠ .none →
      ∃ u, exec (.groupReadEnd bytes) s = .next u
        ∧ u.entry e = { s.entry e with reRead := true }
        ∧ u.fc.step = (if s.fc.step < s.dTop then s.fc.step + 1 else s.fc.step)
        ∧ u.fc.port = FlashRequest.started
            { purpose := .group e, addr := c.req.addr, len := 2048, cls := (s.entry e).cls, live := true } u.fc.step)
    ∧ (∀ t g range, s.heldDigest k ≠ some (Config.digest (s.arriving c bytes)) → (s.entry e).reRead = true →
        k = (.image t, g) → ((s.image t).state = .accepted ∨ (s.image t).state = .failed) →
        (s.image t).range = some range →
      ∃ u, exec (.groupReadEnd bytes) s = .next u
        ∧ (u.image t).state = .failed
        ∧ (∀ i ∈ groupPages (s.image t).pageCount g, u.pageState t i = .bad ∧ u.present t i = none)
        ∧ ((s.image t).state = .accepted → (s.image t).printRequired = true → u.pu.latch = true ∧ u.pu.printEn = false)
        ∧ ((s.image t).state = .failed → u.pu.latch = s.pu.latch)
        ∧ (∀ i r, i ∈ groupPages (s.image t).pageCount g → s.record (.image t) i = some r → r.state ≠ .waitGroup →
            u.record (.image t) i = none
            ∧ (∀ n, r.dest = .slot (some n) → (u.bufferSlot n).state = .free
                ∨ ((u.bufferSlot n).state = .filling ∧ (u.bufferSlot n).key ≠ some (t, i)))
            ∧ (((s.image t).state = .failed
                  ∨ ∀ q, (s.image t).owner = some q → s.onFailHold q = false ∧ (s.life q).state ≠ .prefetch) →
                ∀ p st, p ∈ r.waiters → (s.port p).stream = some st → u.serving p = some (.answer .withheld)))
        ∧ ((u.entry e).state = .free ∨ ((u.entry e).state = .filling ∧ (u.entry e).reRead = false))
        ∧ (s.noNeeds → s.sw.inFlight = .groupCheck → u.entry e = CacheEntry.empty ∧ e ∉ u.iu.lru))

/-- A page READ of an ACCEPTED or FAILED window completes (R65, R66, R76, R77, R79, R102, R103). The page digest of the claimed
group decides. A match makes an UNCHECKED page GOOD and counts it, and leaves a GOOD page and the counts; the record ends
and its claim is released; its slot, or one acquired for scratch content, is VALID with its key and the digested bytes,
pinned once for each waiter, which is served from it, and held for HOLD FOR, whose page joins HELD PAGES; an unpinned one
that is not held joins the tail of the LRU list. A first mismatch raises the clock step, sets RE-READ of the record, which
keeps its class, origin and waiters, and requests the page READ of 4096 bytes again. A second one makes the page BAD, ends
the record, frees its FILLING slot, answers its waiters WITHHELD with their violation reports, releases the claim and
leaves the window FAILED; if it was ACCEPTED, the latch is set for a print-required window (R178), and a RUNNING or
CONFIRMED owner is FAULTED with its timer stopped and its frame ended under on-fail HOLD (R127), and stays as it is under KEEP
(R161). A PREFETCH port
that waits for the page is FAULTED (R154). Where a clause has conditions on waiting work or on PREFETCH ports, they say that
no further work of the same step touches what it states. -/
def Obligations.PageCompared : Prop :=
  ∀ (s : State) (c : CurrentOp) (bytes data : List Byte) (t : Tag) (i : Nat) (r : FillRecord) (lane : StreamLane)
    (range : MapRange),
    s.fc.port = .op c → c.req.purpose = .page (.image t) i → c.req.live = true → s.record (.image t) i = some r →
    s.iu.lane = some lane → data = lane.now ++ s.arriving c bytes → s.noneDeferred = true →
    ((s.image t).state = .accepted ∨ (s.image t).state = .failed) → (s.image t).range = some range →
    (s.pageDigest r = some (Config.digest data) →
      ∃ u, exec (.pageReadEnd bytes) s = .next u
        ∧ (u.image t).state = (s.image t).state ∧ (u.image t).bad = (s.image t).bad ∧ u.fc.step = s.fc.step
        ∧ (s.pageState t i = .unchecked → u.pageState t i = .good ∧ (u.image t).good = (s.image t).good + 1)
        ∧ (s.pageState t i = .good → u.pageState t i = .good ∧ (u.image t).good = (s.image t).good)
        ∧ (r.dest = .scratch → s.present t i = none → u.present t i = none)
        ∧ (s.noNeeds → s.pageState t i ≠ .bad →
            (∀ q g, (s.life q).state = .prefetch → (s.image g).owner = some q → (s.image g).checkBeforeRelease = false) →
            (∀ q, r.holdFor = some q → (s.life q).state = .prefetch →
              i ∉ (s.life q).heldPages ∧ (s.life q).bootSet ≠ some ((s.life q).heldPages.length + 1)) →
          u.record (.image t) i = none
          ∧ (∀ e, s.entryOf (.image t, i / 64) = some e → s.sw.inFlight ≠ .none → r.sweepMade = false →
              u.entry e = { s.entry e with claims := (s.entry e).claims - 1 })
          ∧ (∀ n, (r.dest = .slot (some n) ∨ (r.dest = .scratchThenSlot ∧ s.acquirable = some n)) →
              ((r.waiters ≠ [] ∨ r.holdFor ≠ none
                  ∨ (s.fc.noneWaiting = true ∧ s.sw.inFlight ≠ .none ∧ r.sweepMade = false)) →
                u.bufferSlot n = { state := .valid, key := some (t, i), data := data, pins := r.waiters.length,
                                   heldFor := r.holdFor, discardPending := false })
              ∧ (∀ p st, p ∈ r.waiters → (s.port p).stream = some st →
                  (u.port p).stream = some { st with serve := .slot n })
              ∧ (∀ q, r.holdFor = some q → (s.life q).state = .prefetch →
                  (u.life q).heldPages = (s.life q).heldPages ++ [i])
              ∧ (r.waiters = [] → r.holdFor = none → s.fc.noneWaiting = true → s.sw.inFlight ≠ .none →
                  r.sweepMade = false → u.pb.lru = s.pb.lru.filter (fun m => m != n) ++ [n]))))
    ∧ (s.pageDigest r ≠ some (Config.digest data) → r.reRead = false →
      ∃ u, exec (.pageReadEnd bytes) s = .next u
        ∧ u.fc.step = (if s.fc.step < s.dTop then s.fc.step + 1 else s.fc.step)
        ∧ u.pageState t i = s.pageState t i ∧ (u.image t).state = (s.image t).state
        ∧ (s.pb.prefetch = [] →
            (∃ r', u.record (.image t) i = some r' ∧ r'.reRead = true ∧ r'.cls = r.cls ∧ r'.origin = r.origin
              ∧ r'.waiters = r.waiters)
            ∧ ∀ q : FlashRequest,
              q = { purpose := .page (.image t) i, addr := r.pageAddr, len := 4096, cls := r.cls, live := true } →
              q ∈ u.fc.queues.get r.cls ∨ u.fc.port = q.started u.fc.step))
    ∧ (s.pageDigest r ≠ some (Config.digest data) → r.reRead = true →
      ∃ u, exec (.pageReadEnd bytes) s = .next u
        ∧ u.pageState t i = .bad ∧ (u.image t).state = .failed ∧ u.record (.image t) i = none
        ∧ ((s.image t).state = .accepted →
            ((s.image t).printRequired = true → u.pu.latch = true ∧ u.pu.printEn = false)
            ∧ (∀ p, (s.image t).owner = some p → ((s.life p).state = .running ∨ (s.life p).state = .confirmed) →
                (s.onFailHold p = true → (u.life p).state = .faulted ∧ (u.life p).deadline = none ∧ s.frameEnded u p)
                ∧ (s.onFailHold p = false → u.life p = s.life p)))
        ∧ (∀ n, r.dest = .slot (some n) → (u.bufferSlot n).state = .free
            ∨ ((u.bufferSlot n).state = .filling ∧ (u.bufferSlot n).key ≠ some (t, i)))
        ∧ (s.present t i = none → u.present t i = none)
        ∧ (((s.image t).state = .failed
              ∨ ∀ q, (s.image t).owner = some q → s.onFailHold q = false ∧ (s.life q).state ≠ .prefetch) →
            (∀ p st, p ∈ r.waiters → (s.port p).stream = some st →
              (u.port p).stream = some { st with serve := .answer .withheld, reportedWithheld := true }
              ∧ (st.reportedWithheld = true → (u.port p).violation = (s.port p).violation)
              ∧ (st.reportedWithheld = false → (u.port p).violation
                  = ((s.port p).reported s.holdoffH .withheld ((st.start + st.passed) % 268435456)).violation))
            ∧ (∀ e, s.entryOf (.image t, i / 64) = some e → s.noNeeds → r.holdFor = none → s.sw.inFlight ≠ .none →
                r.sweepMade = false → u.entry e = { s.entry e with claims := (s.entry e).claims - 1 }))
        ∧ ((s.image t).state = .failed → ∀ q, r.holdFor = some q → (s.life q).state = .prefetch →
            (u.life q).state = .faulted))

/-- Buffer slots: what becomes present, what is acquired, what a dropped pin leaves (R76, R82 to R85, R87, R99). A slot that is
present after a step, VALID without DISCARD-PENDING, was so before with the same page, and with the same bytes but at a
512-byte boundary of a running page READ; or it holds the bytes of the page READ that ended in the step, whose digest was
the page's in the claimed group, and the page is GOOD. Page states change at the end of a page READ, a group READ or a
manifest SIGCHECK, at a deadline, at the load of the store and at a reset alone. An acquisition takes the lowest FREE slot,
else the head of the LRU list; a page READ that starts for a record without a slot acquires one, which is FILLING with its
key, PIN COUNT 0 and both flags clear, and touches no other slot. When the last pin is dropped, a DISCARD-PENDING slot
becomes FREE, a VALID one that is not held moves to the tail of the LRU list, and a held one stays out of it. -/
def Obligations.BufferSlotsTakenAndServed : Prop :=
  (∀ (c : Instr) (s u : State) (n : Fin 64) (t : Tag) (i : Nat), exec c s = .next u →
    (u.bufferSlot n).state = .valid → (u.bufferSlot n).discardPending = false → (u.bufferSlot n).key = some (t, i) →
    ((s.bufferSlot n).state = .valid ∧ (s.bufferSlot n).discardPending = false ∧ (s.bufferSlot n).key = some (t, i)
      ∧ ((∀ bytes, c ≠ .parkBoundary bytes) → (u.bufferSlot n).data = (s.bufferSlot n).data))
    ∨ ∃ bytes op r, c = .pageReadEnd bytes ∧ s.fc.port = .op op ∧ op.req.purpose = .page (.image t) i
      ∧ op.req.live = true ∧ s.record (.image t) i = some r
      ∧ (u.bufferSlot n).data = ((s.iu.lane.map (·.now)).getD []) ++ s.arriving op bytes
      ∧ s.pageDigest r = some (Config.digest (u.bufferSlot n).data)
      ∧ (((s.image t).state = .accepted ∨ (s.image t).state = .failed) → (s.image t).range ≠ none →
          s.pageState t i ≠ .bad → u.pageState t i = .good))
  ∧ (∀ (c : Instr) (s u : State), exec c s = .next u → u.loaded = true → (∀ bytes, c ≠ .pageReadEnd bytes) →
      (∀ bytes, c ≠ .groupReadEnd bytes) → c ≠ .manifestSigcheckEnd → (∀ p, c ≠ .deadlineExpiry p) →
      c ≠ .otsLoadComplete →
    ∀ (t : Tag) (i : Nat), u.pageState t i = s.pageState t i)
  ∧ (∀ (s : State) (c : CurrentOp) (bytes : List Byte) (v : WindowKey) (j : Nat) (t : Tag) (i : Nat) (r : FillRecord)
      (q : FlashRequest) (queues : ClassQueues) (n : Fin 64),
    s.fc.port = .op c → c.req.purpose = .page v j → c.req.live = false → s.noneDeferred = true → s.pb.prefetch = [] →
    s.sw.inFlight ≠ .none → s.fc.erase = .none → s.fc.queues.pop allClasses = some (q, queues) →
    q.purpose = .page (.image t) i → q.live = true → s.record (.image t) i = some r → r.state = .ready →
    r.dest = .slot none →
    (((s.bufferSlot n).state = .free ∧ ∀ m, m < n → (s.bufferSlot m).state ≠ .free)
      ∨ ((∀ m, (s.bufferSlot m).state ≠ .free) ∧ s.pb.lru.head? = some n)) →
    s.acquirable = some n
    ∧ ∃ u, exec (.pageReadEnd bytes) s = .next u
      ∧ u.bufferSlot n = { state := .filling, key := some (t, i), data := [], pins := 0, heldFor := none,
                           discardPending := false }
      ∧ (∀ m, m ≠ n → u.bufferSlot m = s.bufferSlot m)
      ∧ u.pb.lru = s.pb.lru.filter (fun m => m != n)
      ∧ u.record (.image t) i = some { r with state := .reading, dest := .slot (some n) }
      ∧ u.fc.port = q.started s.fc.step)
  ∧ (∀ (s : State) (p : PortId) (st : ReadStream) (n : Fin 64), (s.port p).frame = .responding →
    (s.port p).stream = some st → st.serve = .slot n → (s.bufferSlot n).pins = 1 →
    ∃ u, exec (.selectRelease p) s = .next u
      ∧ (∀ m, m ≠ n → u.bufferSlot m = s.bufferSlot m)
      ∧ ((s.bufferSlot n).discardPending = true →
          u.bufferSlot n = BufferSlot.empty ∧ u.pb.lru = s.pb.lru.filter (fun m => m != n))
      ∧ ((s.bufferSlot n).discardPending = false → u.bufferSlot n = { s.bufferSlot n with pins := 0 }
          ∧ ((s.bufferSlot n).state = .valid → (s.bufferSlot n).heldFor = none →
              u.pb.lru = s.pb.lru.filter (fun m => m != n) ++ [n])
          ∧ ((s.bufferSlot n).heldFor.isSome = true → u.pb.lru = s.pb.lru)))

/-- A page READ reaches a 512-byte boundary (R64, R100, R112). A SWEEP record gives way to waiting work of a higher class:
it becomes PARKED and keeps all else, its hash state is parked and the bytes read stay in the scratch, the rest of its page
joins the head of the SWEEP queue, and the highest waiting request starts, a page READ of another record among them.
Otherwise the READ goes on. -/
def Obligations.SweepParksAtBoundary : Prop :=
  ∀ (s : State) (c : CurrentOp) (bytes stream : List Byte) (w : WindowKey) (i : Nat) (r : FillRecord)
    (lane : StreamLane) (n : Nat),
    s.fc.port = .op c → c.req.purpose = .page w i → c.req.live = true → s.record w i = some r → s.iu.lane = some lane →
    n = 4096 - c.req.len + c.delivered + 512 → n ≤ 3584 → s.fc.erase = .none →
    stream = lane.now ++ Memory.deliver s.flash (c.req.addr + c.delivered) 512 bytes →
    ((r.cls ≠ .sweep ∨ s.parkingWork = false) →
      ∃ u, exec (.parkBoundary bytes) s = .next u
        ∧ u.fc = { s.fc with port := .op { c with delivered := c.delivered + 512 } }
        ∧ u.iu = { s.iu with lane := some { lane with now := stream } })
    ∧ (∀ q queues, r.cls = .sweep → s.fc.queues.pop [.demand, .prefetch, .walker, .staging] = some (q, queues) →
      ∃ u, exec (.parkBoundary bytes) s = .next u
        ∧ u.fc.port = q.started s.fc.step
        ∧ u.fc.queues.sweep = { purpose := .page w i, addr := r.pageAddr + n, len := 4096 - n, cls := .sweep, live := true }
            :: s.fc.queues.sweep
        ∧ (q.purpose ≠ .page w i → u.record w i = some { r with state := .parked })
        ∧ (q.purpose ≠ .page w i →
            (∀ v j r', q.purpose = .page v j → q.live = true → s.record v j = some r' →
              r'.state ≠ .parked ∧ r'.dest ≠ .scratch ∧ r'.dest ≠ .scratchThenSlot) →
            u.iu.park = some { win := w, page := i, hash := stream }
            ∧ (r.dest = .scratch ∨ r.dest = .scratchThenSlot → u.pb.scratch = stream))
        ∧ (∀ v j r', q.purpose = .page v j → q.purpose ≠ .page w i → q.live = true → s.record v j = some r' →
            r'.state = .ready → (u.record v j).map (·.state) = some .reading
            ∧ u.iu.lane = some { start := [], now := [] }))

/-! ## The sweep (chapter 9) -/

/-- The sweep stream's pick while IN FLIGHT is none (R165 to R167, R170, R171, R174). The first window of tiers 1 to 3, by
tier and tag, that has a page to check yields the first such page of its lap: it is TARGET, a SWEEP record of the page is
in flight, the cursor is past it, and a seal that was TARGET gives up its claim. With no such window the seal job yields
its next page while it holds its claim. Without the claim it starts its group check: an entry already VALID is claimed
and the page follows at once, a FILLING one is claimed and waited for, a free one is filled with its group READ. With no
work TARGET is none. The first clause says that a step that ends a READ makes this pick (log entry 21). -/
def Obligations.SweepPicksByTier : Prop :=
  ∀ (s u : State), s.sw.inFlight = .none → GroupWaiter.sealCheck ∉ s.iu.waitGroup → u = s.sweepPick →
    (∀ c bytes w i, s.fc.port = .op c → c.req.purpose = .page w i → c.req.live = false → s.pb.prefetch = [] →
        s.noneDeferred = true →
      ∃ v, exec (.pageReadEnd bytes) s = .next v ∧ v.sw = u.sw ∧ v.wu = u.wu)
    ∧ (∀ t i, s.sweepRank t ≤ 3 → s.sweepOpen t i →
        (∀ j, s.sweepOpen t j → (s.image t).lapPlace i ≤ (s.image t).lapPlace j) →
        (∀ t' j, s.sweepRank t' ≤ 3 → s.sweepOpen t' j →
          s.sweepRank t < s.sweepRank t' ∨ (s.sweepRank t = s.sweepRank t' ∧ t ≤ t')) →
      u.sw.target = some (.image t) ∧ u.sw.inFlight = .record (.image t) i
      ∧ u.image t = { s.image t with cursor := if i + 1 = (s.image t).pageCount then 0 else i + 1 }
      ∧ (∃ r, u.record (.image t) i = some r ∧ r.cls = .sweep ∧ r.sweepMade = true ∧ r.waiters = [] ∧ r.origin = none
          ∧ r.pageAddr = (s.image t).pageBase + i * 4096)
      ∧ u.sw.sealQueue = s.sw.sealQueue
      ∧ u.sw.job = (if s.targetsSeal then s.sw.job.map (fun j => { j with claim := false }) else s.sw.job))
    ∧ (∀ j w, s.noSweepWork → s.sw.job = some j → w = j.handover.win → (s.staging w).state = .sealing →
        s.record (.staging w) j.nextPage = none →
      u.sw.target = some (.staging w) ∧ u.wu = s.wu
      ∧ ((j.claim = true ∨ ∃ e, s.entryOf (.staging w, j.group) = some e ∧ (s.entry e).state = .valid) →
          u.sw.inFlight = .record (.staging w) j.nextPage ∧ u.sw.job = some { j with claim := true }
          ∧ ∃ r, u.record (.staging w) j.nextPage = some r ∧ r.cls = .sweep ∧ r.sweepMade = true ∧ r.dest = .scratch
            ∧ r.pageAddr = (s.staging w).base + j.handover.pageAreaOffset * 4096 + j.nextPage * 4096)
      ∧ (∀ e, j.claim = false → s.entryOf (.staging w, j.group) = some e → (s.entry e).state = .filling →
          u.sw.inFlight = .groupCheck ∧ (u.entry e).claims = (s.entry e).claims + 1)
      ∧ (∀ e, j.claim = false → s.entryOf (.staging w, j.group) = none → s.entryToFill = some e →
          s.fc.port ≠ .idle → s.fc.erase = .none →
          u.sw.inFlight = .groupCheck ∧ (u.entry e).state = .filling ∧ (u.entry e).claims = 1
          ∧ (u.entry e).key = some (.staging w, j.group)
          ∧ u.fc.queues.sweep = s.fc.queues.sweep ++
              [{ purpose := .group e, addr := (s.staging w).base + 8192 + j.group * 2048, len := 2048, cls := .sweep,
                 live := true }])
      ∧ (j.claim = false → s.entryOf (.staging w, j.group) = none → s.entryToFill = none →
          u.sw.inFlight = .groupCheck ∧ u.iu.waitGroup = s.iu.waitGroup ++ [.sealCheck]))
    ∧ (s.noSweepWork → (∀ j, s.sw.job = some j → (s.staging j.handover.win).state ≠ .sealing) →
      u = { s with sw := { s.sw with target := none } })

/-- The seal job in the stream (R74, R78, R171 to R173, R186). A page that matches counts in PAGES CHECKED, and the job goes
on to the next page, in the next group after a group's last one; after the last page the window is SEALED with reason
NONE. A first mismatch is read again; a second one makes it SEAL_FAILED with PAGE_MISMATCH, FIRST BAD PAGE the page. A
group that matches holds GROUP CLAIM, and with no image window to sweep the record of NEXT PAGE follows at once; a second
mismatch makes the window SEAL_FAILED with GROUP_MISMATCH, FIRST BAD PAGE 64g. Each end takes the window out of the seal
queue and posts SEAL_DONE to the formatter. -/
def Obligations.SealChecksInStream : Prop :=
  (∀ (s : State) (c : CurrentOp) (bytes data : List Byte) (w : StagingId) (i : Nat) (r : FillRecord) (lane : StreamLane)
    (j : SealJob) (rest : List SealHandover),
    s.fc.port = .op c → c.req.purpose = .page (.staging w) i → c.req.live = true → s.record (.staging w) i = some r →
    s.iu.lane = some lane → data = lane.now ++ s.arriving c bytes → s.noneDeferred = true → s.pb.prefetch = [] →
    r.sweepMade = true → s.sw.inFlight = .record (.staging w) i → GroupWaiter.sealCheck ∉ s.iu.waitGroup →
    s.sw.job = some j → j.handover.win = w → j.nextPage = i → s.sw.sealQueue = j.handover :: rest →
    (∀ h ∈ rest, h.win ≠ w) →
    (s.pageDigest r = some (Config.digest data) → i + 1 ≠ j.handover.pageCount →
      ∃ u k, exec (.pageReadEnd bytes) s = .next u
        ∧ u.staging w = { s.staging w with checked := (s.staging w).checked + 1 }
        ∧ u.sw.job = some k ∧ k.handover = j.handover ∧ k.nextPage = i + 1
        ∧ k.group = (if (i + 1) % 64 = 0 then j.group + 1 else j.group))
    ∧ (s.pageDigest r = some (Config.digest data) → i + 1 = j.handover.pageCount →
      ∃ u, exec (.pageReadEnd bytes) s = .next u
        ∧ u.staging w = { s.staging w with state := .sealed, reason := .none, firstBad := none, digests := [],
                                           checked := (s.staging w).checked + 1 }
        ∧ u.sw.sealQueue = rest ∧ (∀ f, s.formatterPort = some f → (u.port f).events.getLsbD 5 = true))
    ∧ (s.pageDigest r ≠ some (Config.digest data) → r.reRead = false →
      ∃ u r', exec (.pageReadEnd bytes) s = .next u ∧ u.staging w = s.staging w ∧ u.sw.job = some j
        ∧ u.record (.staging w) i = some r' ∧ r'.reRead = true
        ∧ u.fc.step = (if s.fc.step < s.dTop then s.fc.step + 1 else s.fc.step))
    ∧ (s.pageDigest r ≠ some (Config.digest data) → r.reRead = true →
      ∃ u, exec (.pageReadEnd bytes) s = .next u
        ∧ u.staging w = { s.staging w with state := .sealFailed, reason := .pageMismatch, firstBad := some i, digests := [] }
        ∧ u.sw.sealQueue = rest ∧ (∀ f, s.formatterPort = some f → (u.port f).events.getLsbD 5 = true)))
  ∧ (∀ (s : State) (c : CurrentOp) (bytes : List Byte) (e : Fin 8) (w : StagingId) (j : SealJob) (rest : List SealHandover),
    s.fc.port = .op c → c.req.purpose = .group e → (s.entry e).state = .filling →
    (s.entry e).key = some (.staging w, j.group) → s.noneDeferred = true → s.pb.prefetch = [] →
    s.sw.inFlight = .groupCheck → GroupWaiter.sealCheck ∉ s.iu.waitGroup → s.sw.job = some j → j.handover.win = w →
    s.sw.sealQueue = j.handover :: rest → (∀ h ∈ rest, h.win ≠ w) → s.claimants (.staging w, j.group) = [] →
    (∀ t, s.sweepRank t = 4) → (s.staging w).state = .sealing → s.record (.staging w) j.nextPage = none →
    (s.heldDigest (.staging w, j.group) = some (Config.digest (s.arriving c bytes)) →
      ∃ u r, exec (.groupReadEnd bytes) s = .next u
        ∧ u.sw.job = some { j with claim := true } ∧ u.sw.inFlight = .record (.staging w) j.nextPage
        ∧ u.record (.staging w) j.nextPage = some r ∧ r.cls = .sweep ∧ r.sweepMade = true ∧ u.staging w = s.staging w)
    ∧ (s.heldDigest (.staging w, j.group) ≠ some (Config.digest (s.arriving c bytes)) → (s.entry e).reRead = true →
      ∃ u, exec (.groupReadEnd bytes) s = .next u
        ∧ u.staging w = { s.staging w with
            state := .sealFailed, reason := .groupMismatch, firstBad := some (64 * j.group), digests := [] }
        ∧ u.sw.sealQueue = rest ∧ (∀ f, s.formatterPort = some f → (u.port f).events.getLsbD 5 = true)))

/-! ## The flash controller (chapter 6) -/

/-- A flash op completes. An ERASE (R109, R115, R182): every byte of its sector reads 0xFF, no other byte of the flash changes,
and the waiting STAGE-ERASE is answered DONE. A PROGRAM (R109, R183): every bit the flash held at 1, or that the data
clears, takes the data's value; no other byte of the flash changes; and the waiting STAGE-WRITE is answered DONE; what a bit
that the flash cannot raise becomes is not said. A RAW READ (R53, R131): its last bytes are ready for the port that waits
for them, behind those delivered before; that the bytes not yet passed come together here is the model's reading (log
entry 14); those of an abandoned READ go to no port (R57, R113). -/
def Obligations.FlashOpsComplete : Prop :=
  (∀ (s : State) (c : CurrentOp) (r : FlashRequest) (p : PortId),
    s.fc.erase = .erasing r → s.fc.port = .op c → c.req = r → r.purpose = .erase p →
    (s.port p).frame = .executing 0x12 → s.noneDeferred = true →
    ∃ t, exec .eraseComplete s = .next t
      ∧ (∀ a, r.addr ≤ a → a < r.addr + 65536 → Memory.read t.flash a = 0xFF)
      ∧ s.sameFlashOutside t [(r.addr, 65536)]
      ∧ t.port p = { s.port p with frame := .responding, response := doneResponse [], stream := none }
      ∧ (s.fc.noneWaiting = true → t.fc.erase = .none ∧ t.fc.port = .idle))
  ∧ (∀ (s : State) (c : CurrentOp) (p : PortId) (data : List Byte),
    s.fc.port = .op c → c.req.purpose = .program p data → (s.port p).frame = .executing 0x13 → s.noneDeferred = true →
    ∃ t, exec .programComplete s = .next t
      ∧ (∀ i b, i < data.length →
          ((Memory.read s.flash (c.req.addr + i)).getLsbD b = true ∨ (data.getD i 0).getLsbD b = false) →
          (Memory.read t.flash (c.req.addr + i)).getLsbD b = (data.getD i 0).getLsbD b)
      ∧ s.sameFlashOutside t [(c.req.addr, data.length)]
      ∧ t.port p = { s.port p with frame := .responding, response := doneResponse [], stream := none })
  ∧ (∀ (s : State) (c : CurrentOp) (bytes ready : List Byte) (p : PortId) (st : ReadStream),
    s.fc.port = .op c → c.req.purpose = .raw p → c.req.live = true → (s.port p).stream = some st →
    st.serve = .raw ready false → s.pb.prefetch = [] → s.noneDeferred = true →
    ∃ t, exec (.rawReadEnd bytes) s = .next t
      ∧ (t.port p).stream = some { st with serve := .raw (ready ++ s.arriving c bytes) false }
      ∧ t.flash = s.flash ∧ t.wu.pageMap = s.wu.pageMap)
  ∧ (∀ (s : State) (c : CurrentOp) (bytes : List Byte) (p : PortId),
    s.fc.port = .op c → c.req.purpose = .raw p → c.req.live = false → s.pb.prefetch = [] → s.noneDeferred = true →
    ∃ t, exec (.rawReadEnd bytes) s = .next t ∧ (∀ q, (t.port q).stream = (s.port q).stream) ∧ t.flash = s.flash)

/-- Erase suspend and the time-outs. A request of class DEMAND, PREFETCH or WALKER that joins its queue while the erase is
ERASING makes it SUSPENDING; one of class STAGING or SWEEP, or one that joins while it is SUSPENDING, just waits (R114). At the
end of a RAW READ that ran while the erase was SUSPENDED, the highest waiting request of those classes starts; with none
waiting RESUME makes it ERASING (R115). The clock step a resumed ERASE runs at is the model's choice (log entry 30). SUSPEND is
acknowledged (R114 to R116). An interrupted erase is SUSPENDED, its sector may be partly erased, so that
every byte of it is a free value, and no other byte of the flash changes; the highest waiting request of class DEMAND,
PREFETCH or WALKER starts, and with none waiting the erase resumes at once. An erase that had already finished completes.
An op reaches its time limit (R118, R119, R120): RESET occupies the flash port. A READ is to be retried after it the first
time and to end FAULT the second time, a RAW READ's delivered bytes ready for its port (log entry 14); a PROGRAM, an ERASE and an erase whose SUSPEND stays unanswered are to end
FAULT. -/
def Obligations.SuspendAndTimeouts : Prop :=
  (∀ (s : State) (c : CurrentOp) (r e : FlashRequest) (x : PortId), s.fc.port = .op c → c.req.purpose = .erase x →
    (s.fc.erase = .erasing e → r.cls = .demand ∨ r.cls = .prefetch ∨ r.cls = .walker →
      s.request r = { s with fc := { s.fc with queues := s.fc.queues.joinTail r, erase := .suspending e } })
    ∧ (s.fc.erase = .erasing e ∧ (r.cls = .staging ∨ r.cls = .sweep) ∨ s.fc.erase = .suspending e →
      s.request r = { s with fc := { s.fc with queues := s.fc.queues.joinTail r } }))
  ∧ (∀ (s : State) (c : CurrentOp) (r : FlashRequest) (p : PortId) (bytes : List Byte), s.fc.erase = .suspended r →
    s.fc.port = .op c → c.req.purpose = .raw p → s.noneDeferred = true → s.pb.prefetch = [] → s.sw.inFlight ≠ .none →
    (s.fc.queues.pop [.demand, .prefetch, .walker] = none →
      ∃ t, exec (.rawReadEnd bytes) s = .next t
        ∧ t.fc = { s.fc with erase := .erasing r, port := r.started s.fc.step } ∧ t.flash = s.flash)
    ∧ (∀ q queues, s.fc.queues.pop [.demand, .prefetch, .walker] = some (q, queues) → (∀ x, q.purpose ≠ .erase x) →
      ∃ t, exec (.rawReadEnd bytes) s = .next t ∧ t.fc = { s.fc with port := q.started s.fc.step, queues := queues }
        ∧ t.flash = s.flash))
  ∧ (∀ (s : State) (c : CurrentOp) (r : FlashRequest) (p : PortId),
    s.fc.erase = .suspending r → s.fc.port = .op c → c.req = r → r.purpose = .erase p →
    (∀ q queues, s.fc.queues.pop [.demand, .prefetch, .walker] = some (q, queues) → q.purpose.isRead = true →
      ∃ t, exec (.suspendAck false) s = .next t
        ∧ t.fc = { s.fc with erase := .suspended r, port := q.started s.fc.step, queues := queues }
        ∧ s.sameFlashOutside t [(r.addr, 65536)]
        ∧ (∀ a, r.addr ≤ a → a < r.addr + 65536 → Memory.read t.flash a = Config.flashResidue s.freeCount a))
    ∧ (s.fc.queues.pop [.demand, .prefetch, .walker] = none →
      ∃ t, exec (.suspendAck false) s = .next t
        ∧ t = { s with fc := { s.fc with erase := .erasing r, port := r.started s.fc.step }, flash := t.flash,
                       freeCount := t.freeCount }
        ∧ s.sameFlashOutside t [(r.addr, 65536)])
    ∧ ((s.port p).frame = .executing 0x12 → s.noneDeferred = true →
      ∃ t, exec (.suspendAck true) s = .next t
        ∧ (∀ a, r.addr ≤ a → a < r.addr + 65536 → Memory.read t.flash a = 0xFF)
        ∧ s.sameFlashOutside t [(r.addr, 65536)]
        ∧ t.port p = { s.port p with frame := .responding, response := doneResponse [], stream := none }))
  ∧ (∀ (s : State) (c : CurrentOp) (bytes : List Byte) (r : FlashRequest) (p : PortId), s.fc.port = .op c →
    (c.req.purpose.isRead = true → (∀ q, c.req.purpose ≠ .raw q) →
      (c.retryUsed = false → exec (.readTimeout bytes) s
        = .next { s with fc := { s.fc with port := .reset (.retryRead { c with retryUsed := true }) } })
      ∧ (c.retryUsed = true → exec (.readTimeout bytes) s
        = .next { s with fc := { s.fc with port := .reset (.failRead c) } }))
    ∧ (∀ q d, c.req.purpose = .raw q →
        d = { c with delivered := c.delivered + (bytes.take (c.req.len - c.delivered - 1)).length } →
      ∃ t, exec (.readTimeout bytes) s = .next t
        ∧ (c.retryUsed = false →
            t.fc = { s.fc with port := .reset (.retryRead { d with retryUsed := true }) })
        ∧ (c.retryUsed = true → t.fc = { s.fc with port := .reset (.failRead d) })
        ∧ (c.req.live = false → t.ports = s.ports)
        ∧ (∀ st ready faulted, c.req.live = true → (s.port q).stream = some st → st.serve = .raw ready faulted →
            (t.port q).stream = some { st with
              serve := .raw (ready ++ bytes.take (c.req.len - c.delivered - 1)) faulted }))
    ∧ (∀ data, c.req.purpose = .program p data →
      exec .programTimeout s = .next { s with fc := { s.fc with port := .reset (.failProgram c.req) } })
    ∧ (c.req = r → r.purpose = .erase p →
      (s.fc.erase = .erasing r →
        exec .eraseTimeout s = .next { s with fc := { s.fc with port := .reset (.failErase r false) } })
      ∧ (s.fc.erase = .suspending r →
        exec .suspendTimeout s = .next { s with fc := { s.fc with port := .reset (.failErase r true) } })))

/-- The flash RESET ends (R111, R118 to R122). After a reset of the part the flash is free: the highest waiting request, the
directory READ among them, starts. A READ that timed out once starts again; a RAW READ from the first byte not yet
passed. A SUSPENDED erase is aborted by it and ends FAULT: its sector is left as the flash leaves it. A READ that timed
out twice, a PROGRAM and an ERASE end FAULT. Each FAULT enters the timeout record and FLASH_FAULT is posted to the
formatter's port; a staging command gets the fault response, and the flash changes at most in the program page or
sector. The ADDRESS entered for a RAW READ retried from a later byte is the one its first start had (the model's reading,
log entry 14). -/
def Obligations.ResetEndsWithRetryOrFault : Prop :=
  ∀ (s : State) (p f : PortId), s.noneDeferred = true → s.formatterPort = some f →
    (s.fc.port = .reset .first → s.fc.erase = .none → s.fc.noneWaiting = true →
      exec .resetEnd s = .next { s with fc := { s.fc with port := .idle } })
    ∧ (∀ q queues, s.fc.port = .reset .first → s.fc.erase = .none → s.fc.queues.pop allClasses = some (q, queues) →
        (∀ x, q.purpose ≠ .erase x) →
      ∃ t, exec .resetEnd s = .next t ∧ t.fc = { s.fc with port := q.started s.fc.step, queues := queues }
        ∧ t.flash = s.flash)
    ∧ (∀ c, s.fc.port = .reset (.retryRead c) → s.fc.erase = .none → (∀ q, c.req.purpose ≠ .raw q) →
      ∃ t, exec .resetEnd s = .next t ∧ t.fc = { s.fc with port := .op { c with delivered := 0, step := s.fc.step } }
        ∧ t.flash = s.flash ∧ t.ports = s.ports)
    ∧ (∀ c q st ready faulted, s.fc.port = .reset (.retryRead c) → s.fc.erase = .none → c.req.purpose = .raw q →
        c.req.live = true → (s.port q).stream = some st → st.serve = .raw ready faulted →
      ∃ t, exec .resetEnd s = .next t
        ∧ t.fc = { s.fc with port := .op { c with delivered := c.delivered - ready.length, step := s.fc.step } }
        ∧ (t.port q).stream = some { st with serve := .raw [] faulted } ∧ t.flash = s.flash)
    ∧ (∀ c r, s.fc.port = .reset (.retryRead c) → s.fc.erase = .suspended r → r.purpose = .erase p →
        (∀ q, c.req.purpose ≠ .raw q) → (s.port p).frame = .executing 0x12 →
      ∃ t, exec .resetEnd s = .next t
        ∧ t.fc = { s.fc with port := .op { c with delivered := 0, step := s.fc.step }, erase := .none,
                             timeout := s.fc.timeout.enter .erase r.addr r.cls .window }
        ∧ (t.port p).frame = .responding ∧ (t.port p).response = [1, 0, 0, 0]
        ∧ (t.port f).events.getLsbD 6 = true ∧ s.sameFlashOutside t [(r.addr, 65536)])
    ∧ (∀ c, s.fc.port = .reset (.failRead c) → s.fc.erase = .none →
      ∃ t, exec .resetEnd s = .next t
        ∧ t.fc.timeout = s.fc.timeout.enter .read c.req.addr c.req.cls c.req.purpose.requester
        ∧ (t.port f).events.getLsbD 6 = true ∧ t.flash = s.flash)
    ∧ (∀ r data, s.fc.port = .reset (.failProgram r) → r.purpose = .program p data →
        (s.port p).frame = .executing 0x13 →
      ∃ t, exec .resetEnd s = .next t
        ∧ t.fc.timeout = s.fc.timeout.enter .program r.addr r.cls .window
        ∧ (t.port p).frame = .responding ∧ (t.port p).response = [1, 0, 0, 0]
        ∧ (t.port f).events.getLsbD 6 = true ∧ s.sameFlashOutside t [(r.addr / 256 * 256, 256)])
    ∧ (∀ r bySuspend, s.fc.port = .reset (.failErase r bySuspend) → r.purpose = .erase p →
        (s.port p).frame = .executing 0x12 →
      ∃ t, exec .resetEnd s = .next t
        ∧ t.fc.timeout = s.fc.timeout.enter (if bySuspend then .suspend else .erase) r.addr r.cls .window
        ∧ (t.port p).frame = .responding ∧ (t.port p).response = [1, 0, 0, 0]
        ∧ (t.port f).events.getLsbD 6 = true ∧ s.sameFlashOutside t [(r.addr, 65536)])

/-- A READ that timed out twice ends FAULT at the end of its RESET, and its requester acts (R23, R24, R38, R72, R75, R76, R104,
R121, R171, R172); what the FAULT enters and posts is in ResetEndsWithRetryOrFault. A page or group READ of an image window
changes no page state, no window but its sweep cursor, and not the latch: the records it served end and their waiters are
answered FAULT, a FILLING slot is freed, the claim or the entry goes, and a page with HOLD FOR is back in the prefetch list
or its new record. A seal's page or group READ ends the seal SEAL_FAILED with FLASH_FAULT and SEAL_DONE. A faulted probe
gives its slot FLASH_FAULT: slot B is probed after slot A's, and after slot B's a slot A that was probed is read, or the tag
is REJECTED. A faulted manifest READ gives its candidate FLASH_FAULT, and the next one is read or the tag REJECTED; a seal's
makes the window SEAL_FAILED. A RAW READ's bytes are FAULT from there on. The fault form of a READ's row is that same end
(log entry 3). -/
def Obligations.ReadFaultDelivered : Prop :=
  ∀ (s : State) (c : CurrentOp), s.fc.port = .reset (.failRead c) → s.fc.erase = .none → s.noneDeferred = true →
    ((c.req.purpose = .directory → exec (.directoryReadEnd .fault) s = exec .resetEnd s)
      ∧ (∀ x, c.req.purpose = .probe x → exec (.probeReadEnd .fault) s = exec .resetEnd s)
      ∧ (c.req.purpose = .walkerManifest → exec (.manifestReadEnd .fault) s = exec .resetEnd s)
      ∧ (c.req.purpose = .sealManifest → exec (.sealManifestReadEnd .fault) s = exec .resetEnd s))
    ∧ (∀ t i r, c.req.purpose = .page (.image t) i → c.req.live = true → s.record (.image t) i = some r →
      ∃ u, exec .resetEnd s = .next u
        ∧ u.wu.pageMap = s.wu.pageMap ∧ u.pu.latch = s.pu.latch
        ∧ (∀ g, { u.image g with cursor := (s.image g).cursor } = s.image g)
        ∧ (s.noNeeds →
            ((r.holdFor = none ∨ (s.present t i = none ∧ s.pageState t i ≠ .bad)) →
              ∀ p st, p ∈ r.waiters → (s.port p).stream = some st →
                (u.port p).stream = some { st with serve := .answer .fault })
            ∧ (r.holdFor = none →
                (∀ r', u.record (.image t) i = some r' → r'.cls = .sweep ∧ r'.sweepMade = true ∧ r'.waiters = [])
                ∧ (∀ n, r.dest = .slot (some n) → (u.bufferSlot n).state = .free
                    ∨ ((u.bufferSlot n).state = .filling ∧ (u.bufferSlot n).key ≠ some (t, i)))
                ∧ (s.sw.inFlight ≠ .none → r.sweepMade = false → u.record (.image t) i = none
                    ∧ ∀ e, s.entryOf (.image t, i / 64) = some e →
                        u.entry e = { s.entry e with claims := (s.entry e).claims - 1 }))
            ∧ (∀ p, r.holdFor = some p → s.present t i = none → s.pageState t i ≠ .bad →
                (p, t, i) ∈ u.pb.prefetch ∨ ∃ r', u.record (.image t) i = some r' ∧ r'.holdFor = some p)))
    ∧ (∀ e t g, c.req.purpose = .group e → (s.entry e).state = .filling → (s.entry e).key = some (.image t, g) →
      ∃ u, exec .resetEnd s = .next u
        ∧ u.wu.pageMap = s.wu.pageMap ∧ u.pu.latch = s.pu.latch
        ∧ (∀ h, { u.image h with cursor := (s.image h).cursor } = s.image h)
        ∧ ((u.entry e).state = .free ∨ ((u.entry e).state = .filling ∧ (u.entry e).reRead = false))
        ∧ (s.noNeeds → (∀ r ∈ s.pb.records, r.holdFor = none) →
            (∀ i r, s.record (.image t) i = some r → i / 64 = g → r.state ≠ .waitGroup →
              (∀ p st, p ∈ r.waiters → (s.port p).stream = some st →
                (u.port p).stream = some { st with serve := .answer .fault })
              ∧ (∀ r', u.record (.image t) i = some r' → r'.cls = .sweep ∧ r'.sweepMade = true ∧ r'.waiters = []))
            ∧ (s.sw.inFlight = .groupCheck → u.entry e = CacheEntry.empty ∧ e ∉ u.iu.lru)))
    ∧ (∀ w i r j rest, c.req.purpose = .page (.staging w) i → c.req.live = true → s.record (.staging w) i = some r →
        r.sweepMade = true → s.sw.inFlight = .record (.staging w) i → GroupWaiter.sealCheck ∉ s.iu.waitGroup →
        s.pb.prefetch = [] → s.sw.job = some j → j.handover.win = w → s.sw.sealQueue = j.handover :: rest →
        (∀ h ∈ rest, h.win ≠ w) →
      ∃ u, exec .resetEnd s = .next u
        ∧ u.staging w = { s.staging w with state := .sealFailed, reason := .flashFault, firstBad := some i, digests := [] }
        ∧ u.sw.sealQueue = rest ∧ (∀ f, s.formatterPort = some f → (u.port f).events.getLsbD 5 = true))
    ∧ (∀ e w j rest, c.req.purpose = .group e → (s.entry e).state = .filling →
        (s.entry e).key = some (.staging w, j.group) → s.sw.inFlight = .groupCheck →
        GroupWaiter.sealCheck ∉ s.iu.waitGroup → s.pb.prefetch = [] → s.sw.job = some j → j.handover.win = w →
        s.sw.sealQueue = j.handover :: rest → (∀ h ∈ rest, h.win ≠ w) → s.claimants (.staging w, j.group) = [] →
      ∃ u, exec .resetEnd s = .next u
        ∧ u.staging w = { s.staging w with
            state := .sealFailed, reason := .flashFault, firstBad := some (64 * j.group), digests := [] }
        ∧ u.sw.sealQueue = rest ∧ (∀ f, s.formatterPort = some f → (u.port f).events.getLsbD 5 = true))
    ∧ (∀ t k, c.req.purpose = .probe .a → s.mu.walker.entry = some (t, k) → s.calm = true →
      ∃ u, exec .resetEnd s = .next u ∧ (u.image t).reasonA = .flashFault ∧ u.mu.walker.probeA = none
        ∧ u.fc.port = FlashRequest.started
            { purpose := .probe .b, addr := s.slotAddr t .b, len := 2048, cls := .walker, live := true } s.fc.step)
    ∧ (∀ t k, c.req.purpose = .probe .b → s.mu.walker.entry = some (t, k) → s.calm = true →
      ∃ u, exec .resetEnd s = .next u ∧ (u.image t).reasonB = .flashFault ∧ (u.image t).reasonA = (s.image t).reasonA
        ∧ (s.mu.walker.probeA.isSome = true → u.mu.walker.candidates = [.a] ∧ u.mu.walker.phase = .read
            ∧ u.fc.port = FlashRequest.started
                { purpose := .walkerManifest, addr := s.slotAddr t .a, len := 8192, cls := .walker, live := true }
                s.fc.step)
        ∧ (s.mu.walker.probeA = none → (∀ e ∈ s.mu.tagQueue, e.1 ≠ t) → (u.image t).state = .rejected))
    ∧ (∀ t k x rest, c.req.purpose = .walkerManifest → s.mu.walker.entry = some (t, k) →
        s.mu.walker.candidates = x :: rest → s.calm = true →
      ∃ u, exec .resetEnd s = .next u ∧ (u.image t).reason x = .flashFault
        ∧ (∀ y more, rest = y :: more → u.mu.walker.candidates = rest ∧ (u.image t).state = (s.image t).state
            ∧ u.fc.port = FlashRequest.started
                { purpose := .walkerManifest, addr := s.slotAddr t y, len := 8192, cls := .walker, live := true }
                s.fc.step)
        ∧ (rest = [] → (∀ e ∈ s.mu.tagQueue, e.1 ≠ t) → (u.image t).state = .rejected ∧ (u.image t).slot = none))
    ∧ (∀ k, c.req.purpose = .sealManifest → c.req.live = true → s.mu.sealCheck = some k →
      ∃ u, exec .resetEnd s = .next u
        ∧ u.staging k.win = { s.staging k.win with
            state := .sealFailed, reason := .flashFault, firstBad := none, checked := 0, digests := [] }
        ∧ (∀ f, s.formatterPort = some f → (u.port f).events.getLsbD 5 = true))
    ∧ (∀ p st ready faulted, c.req.purpose = .raw p → c.req.live = true → s.pb.prefetch = [] →
        (s.port p).stream = some st → st.serve = .raw ready faulted →
      ∃ u, exec .resetEnd s = .next u ∧ (u.port p).stream = some { st with serve := .raw [] true })
end

