-- ==== Sys2Proof/Laws/State.lean ====
section
/-! SUPPORT. What each update of one member of a table leaves in every field of the state, so that no later proof
unfolds a record update. -/

namespace Sys2Proof.Machine

/-! ## Tables -/

theorem updAt_self {α : Type} {n : Nat} (v : Vector α n) (i : Fin n) (f : α → α) : (updAt v i f)[i] = f v[i] := by
  simp [updAt]

@[simp] theorem updAt_self_val {α : Type} {n : Nat} (v : Vector α n) (i : Fin n) (f : α → α) :
    (updAt v i f)[i.val] = f v[i.val] := updAt_self v i f

theorem updAt_ne {α : Type} {n : Nat} (v : Vector α n) (i j : Fin n) (f : α → α) (h : i ≠ j) :
    (updAt v i f)[j] = v[j] := by
  have h' : (i : Nat) ≠ j := fun e => h (Fin.ext e)
  simp [updAt, h']

theorem updAt_get {α : Type} {n : Nat} (v : Vector α n) (i j : Fin n) (f : α → α) :
    (updAt v i f)[j] = if i = j then f v[j] else v[j] := by
  by_cases h : i = j
  · subst h; simp only [updAt_self, if_true]
  · simp [h, updAt_ne v i j f h]

@[simp] theorem updAt_updAt {α : Type} {n : Nat} (v : Vector α n) (i : Fin n) (f g : α → α) :
    updAt (updAt v i f) i g = updAt v i (fun x => g (f x)) := by
  simp [updAt]

/-! ## modImage -/

@[simp] theorem State.modImage_flash (s : State) (t : Tag) (f : ImageWindow → ImageWindow) : (s.modImage t f).flash = s.flash := rfl
@[simp] theorem State.modImage_freeCount (s : State) (t : Tag) (f : ImageWindow → ImageWindow) : (s.modImage t f).freeCount = s.freeCount := rfl
@[simp] theorem State.modImage_ots (s : State) (t : Tag) (f : ImageWindow → ImageWindow) : (s.modImage t f).ots = s.ots := rfl
@[simp] theorem State.modImage_loaded (s : State) (t : Tag) (f : ImageWindow → ImageWindow) : (s.modImage t f).loaded = s.loaded := rfl
@[simp] theorem State.modImage_cfg (s : State) (t : Tag) (f : ImageWindow → ImageWindow) : (s.modImage t f).cfg = s.cfg := rfl
@[simp] theorem State.modImage_fc (s : State) (t : Tag) (f : ImageWindow → ImageWindow) : (s.modImage t f).fc = s.fc := rfl
@[simp] theorem State.modImage_mu (s : State) (t : Tag) (f : ImageWindow → ImageWindow) : (s.modImage t f).mu = s.mu := rfl
@[simp] theorem State.modImage_ke (s : State) (t : Tag) (f : ImageWindow → ImageWindow) : (s.modImage t f).ke = s.ke := rfl
@[simp] theorem State.modImage_iu (s : State) (t : Tag) (f : ImageWindow → ImageWindow) : (s.modImage t f).iu = s.iu := rfl
@[simp] theorem State.modImage_pb (s : State) (t : Tag) (f : ImageWindow → ImageWindow) : (s.modImage t f).pb = s.pb := rfl
@[simp] theorem State.modImage_sw (s : State) (t : Tag) (f : ImageWindow → ImageWindow) : (s.modImage t f).sw = s.sw := rfl
@[simp] theorem State.modImage_pu (s : State) (t : Tag) (f : ImageWindow → ImageWindow) : (s.modImage t f).pu = s.pu := rfl
@[simp] theorem State.modImage_lc (s : State) (t : Tag) (f : ImageWindow → ImageWindow) : (s.modImage t f).lc = s.lc := rfl
@[simp] theorem State.modImage_ports (s : State) (t : Tag) (f : ImageWindow → ImageWindow) : (s.modImage t f).ports = s.ports := rfl
@[simp] theorem State.modImage_pending (s : State) (t : Tag) (f : ImageWindow → ImageWindow) : (s.modImage t f).pending = s.pending := rfl
@[simp] theorem State.modImage_wu_staging (s : State) (t : Tag) (f : ImageWindow → ImageWindow) :
    (s.modImage t f).wu.staging = s.wu.staging := rfl
@[simp] theorem State.modImage_wu_pageMap (s : State) (t : Tag) (f : ImageWindow → ImageWindow) :
    (s.modImage t f).wu.pageMap = s.wu.pageMap := rfl
@[simp] theorem State.modImage_wu_mapUsed (s : State) (t : Tag) (f : ImageWindow → ImageWindow) :
    (s.modImage t f).wu.mapUsed = s.wu.mapUsed := rfl
@[simp] theorem State.image_modImage_self (s : State) (t : Tag) (f : ImageWindow → ImageWindow) :
    (s.modImage t f).image t = f (s.image t) := updAt_self _ _ _
theorem State.image_modImage_ne (s : State) (t y : Tag) (f : ImageWindow → ImageWindow) (h : t ≠ y) :
    (s.modImage t f).image y = s.image y := updAt_ne _ _ _ _ h
theorem State.image_modImage (s : State) (t y : Tag) (f : ImageWindow → ImageWindow) :
    (s.modImage t f).image y = if t = y then f (s.image y) else s.image y := updAt_get _ _ _ _
@[simp] theorem State.modImage_modImage (s : State) (t : Tag) (f g : ImageWindow → ImageWindow) :
    (s.modImage t f).modImage t g = s.modImage t (fun u => g (f u)) := by
  simp [State.modImage]
@[simp] theorem State.staging_modImage (s : State) (t : Tag) (f : ImageWindow → ImageWindow) (y : StagingId) :
    (s.modImage t f).staging y = s.staging y := rfl
@[simp] theorem State.port_modImage (s : State) (t : Tag) (f : ImageWindow → ImageWindow) (y : PortId) :
    (s.modImage t f).port y = s.port y := rfl
@[simp] theorem State.life_modImage (s : State) (t : Tag) (f : ImageWindow → ImageWindow) (y : PortId) :
    (s.modImage t f).life y = s.life y := rfl
@[simp] theorem State.bufferSlot_modImage (s : State) (t : Tag) (f : ImageWindow → ImageWindow) (y : Fin 64) :
    (s.modImage t f).bufferSlot y = s.bufferSlot y := rfl
@[simp] theorem State.entry_modImage (s : State) (t : Tag) (f : ImageWindow → ImageWindow) (y : Fin 8) :
    (s.modImage t f).entry y = s.entry y := rfl

/-! ## modStaging -/

@[simp] theorem State.modStaging_flash (s : State) (w : StagingId) (f : StagingWindow → StagingWindow) : (s.modStaging w f).flash = s.flash := rfl
@[simp] theorem State.modStaging_freeCount (s : State) (w : StagingId) (f : StagingWindow → StagingWindow) : (s.modStaging w f).freeCount = s.freeCount := rfl
@[simp] theorem State.modStaging_ots (s : State) (w : StagingId) (f : StagingWindow → StagingWindow) : (s.modStaging w f).ots = s.ots := rfl
@[simp] theorem State.modStaging_loaded (s : State) (w : StagingId) (f : StagingWindow → StagingWindow) : (s.modStaging w f).loaded = s.loaded := rfl
@[simp] theorem State.modStaging_cfg (s : State) (w : StagingId) (f : StagingWindow → StagingWindow) : (s.modStaging w f).cfg = s.cfg := rfl
@[simp] theorem State.modStaging_fc (s : State) (w : StagingId) (f : StagingWindow → StagingWindow) : (s.modStaging w f).fc = s.fc := rfl
@[simp] theorem State.modStaging_mu (s : State) (w : StagingId) (f : StagingWindow → StagingWindow) : (s.modStaging w f).mu = s.mu := rfl
@[simp] theorem State.modStaging_ke (s : State) (w : StagingId) (f : StagingWindow → StagingWindow) : (s.modStaging w f).ke = s.ke := rfl
@[simp] theorem State.modStaging_iu (s : State) (w : StagingId) (f : StagingWindow → StagingWindow) : (s.modStaging w f).iu = s.iu := rfl
@[simp] theorem State.modStaging_pb (s : State) (w : StagingId) (f : StagingWindow → StagingWindow) : (s.modStaging w f).pb = s.pb := rfl
@[simp] theorem State.modStaging_sw (s : State) (w : StagingId) (f : StagingWindow → StagingWindow) : (s.modStaging w f).sw = s.sw := rfl
@[simp] theorem State.modStaging_pu (s : State) (w : StagingId) (f : StagingWindow → StagingWindow) : (s.modStaging w f).pu = s.pu := rfl
@[simp] theorem State.modStaging_lc (s : State) (w : StagingId) (f : StagingWindow → StagingWindow) : (s.modStaging w f).lc = s.lc := rfl
@[simp] theorem State.modStaging_ports (s : State) (w : StagingId) (f : StagingWindow → StagingWindow) : (s.modStaging w f).ports = s.ports := rfl
@[simp] theorem State.modStaging_pending (s : State) (w : StagingId) (f : StagingWindow → StagingWindow) : (s.modStaging w f).pending = s.pending := rfl
@[simp] theorem State.modStaging_wu_image (s : State) (w : StagingId) (f : StagingWindow → StagingWindow) :
    (s.modStaging w f).wu.image = s.wu.image := rfl
@[simp] theorem State.modStaging_wu_pageMap (s : State) (w : StagingId) (f : StagingWindow → StagingWindow) :
    (s.modStaging w f).wu.pageMap = s.wu.pageMap := rfl
@[simp] theorem State.modStaging_wu_mapUsed (s : State) (w : StagingId) (f : StagingWindow → StagingWindow) :
    (s.modStaging w f).wu.mapUsed = s.wu.mapUsed := rfl
@[simp] theorem State.staging_modStaging_self (s : State) (w : StagingId) (f : StagingWindow → StagingWindow) :
    (s.modStaging w f).staging w = f (s.staging w) := updAt_self _ _ _
theorem State.staging_modStaging_ne (s : State) (w y : StagingId) (f : StagingWindow → StagingWindow) (h : w ≠ y) :
    (s.modStaging w f).staging y = s.staging y := updAt_ne _ _ _ _ h
theorem State.staging_modStaging (s : State) (w y : StagingId) (f : StagingWindow → StagingWindow) :
    (s.modStaging w f).staging y = if w = y then f (s.staging y) else s.staging y := updAt_get _ _ _ _
@[simp] theorem State.modStaging_modStaging (s : State) (w : StagingId) (f g : StagingWindow → StagingWindow) :
    (s.modStaging w f).modStaging w g = s.modStaging w (fun u => g (f u)) := by
  simp [State.modStaging]
@[simp] theorem State.image_modStaging (s : State) (w : StagingId) (f : StagingWindow → StagingWindow) (y : Tag) :
    (s.modStaging w f).image y = s.image y := rfl
@[simp] theorem State.port_modStaging (s : State) (w : StagingId) (f : StagingWindow → StagingWindow) (y : PortId) :
    (s.modStaging w f).port y = s.port y := rfl
@[simp] theorem State.life_modStaging (s : State) (w : StagingId) (f : StagingWindow → StagingWindow) (y : PortId) :
    (s.modStaging w f).life y = s.life y := rfl
@[simp] theorem State.bufferSlot_modStaging (s : State) (w : StagingId) (f : StagingWindow → StagingWindow) (y : Fin 64) :
    (s.modStaging w f).bufferSlot y = s.bufferSlot y := rfl
@[simp] theorem State.entry_modStaging (s : State) (w : StagingId) (f : StagingWindow → StagingWindow) (y : Fin 8) :
    (s.modStaging w f).entry y = s.entry y := rfl

/-! ## modPort -/

@[simp] theorem State.modPort_flash (s : State) (p : PortId) (f : PortUnit → PortUnit) : (s.modPort p f).flash = s.flash := rfl
@[simp] theorem State.modPort_freeCount (s : State) (p : PortId) (f : PortUnit → PortUnit) : (s.modPort p f).freeCount = s.freeCount := rfl
@[simp] theorem State.modPort_ots (s : State) (p : PortId) (f : PortUnit → PortUnit) : (s.modPort p f).ots = s.ots := rfl
@[simp] theorem State.modPort_loaded (s : State) (p : PortId) (f : PortUnit → PortUnit) : (s.modPort p f).loaded = s.loaded := rfl
@[simp] theorem State.modPort_cfg (s : State) (p : PortId) (f : PortUnit → PortUnit) : (s.modPort p f).cfg = s.cfg := rfl
@[simp] theorem State.modPort_fc (s : State) (p : PortId) (f : PortUnit → PortUnit) : (s.modPort p f).fc = s.fc := rfl
@[simp] theorem State.modPort_mu (s : State) (p : PortId) (f : PortUnit → PortUnit) : (s.modPort p f).mu = s.mu := rfl
@[simp] theorem State.modPort_ke (s : State) (p : PortId) (f : PortUnit → PortUnit) : (s.modPort p f).ke = s.ke := rfl
@[simp] theorem State.modPort_wu (s : State) (p : PortId) (f : PortUnit → PortUnit) : (s.modPort p f).wu = s.wu := rfl
@[simp] theorem State.modPort_iu (s : State) (p : PortId) (f : PortUnit → PortUnit) : (s.modPort p f).iu = s.iu := rfl
@[simp] theorem State.modPort_pb (s : State) (p : PortId) (f : PortUnit → PortUnit) : (s.modPort p f).pb = s.pb := rfl
@[simp] theorem State.modPort_sw (s : State) (p : PortId) (f : PortUnit → PortUnit) : (s.modPort p f).sw = s.sw := rfl
@[simp] theorem State.modPort_pu (s : State) (p : PortId) (f : PortUnit → PortUnit) : (s.modPort p f).pu = s.pu := rfl
@[simp] theorem State.modPort_lc (s : State) (p : PortId) (f : PortUnit → PortUnit) : (s.modPort p f).lc = s.lc := rfl
@[simp] theorem State.modPort_pending (s : State) (p : PortId) (f : PortUnit → PortUnit) : (s.modPort p f).pending = s.pending := rfl
@[simp] theorem State.port_modPort_self (s : State) (p : PortId) (f : PortUnit → PortUnit) :
    (s.modPort p f).port p = f (s.port p) := updAt_self _ _ _
theorem State.port_modPort_ne (s : State) (p y : PortId) (f : PortUnit → PortUnit) (h : p ≠ y) :
    (s.modPort p f).port y = s.port y := updAt_ne _ _ _ _ h
theorem State.port_modPort (s : State) (p y : PortId) (f : PortUnit → PortUnit) :
    (s.modPort p f).port y = if p = y then f (s.port y) else s.port y := updAt_get _ _ _ _
@[simp] theorem State.modPort_modPort (s : State) (p : PortId) (f g : PortUnit → PortUnit) :
    (s.modPort p f).modPort p g = s.modPort p (fun u => g (f u)) := by
  simp [State.modPort]
@[simp] theorem State.image_modPort (s : State) (p : PortId) (f : PortUnit → PortUnit) (y : Tag) :
    (s.modPort p f).image y = s.image y := rfl
@[simp] theorem State.staging_modPort (s : State) (p : PortId) (f : PortUnit → PortUnit) (y : StagingId) :
    (s.modPort p f).staging y = s.staging y := rfl
@[simp] theorem State.life_modPort (s : State) (p : PortId) (f : PortUnit → PortUnit) (y : PortId) :
    (s.modPort p f).life y = s.life y := rfl
@[simp] theorem State.bufferSlot_modPort (s : State) (p : PortId) (f : PortUnit → PortUnit) (y : Fin 64) :
    (s.modPort p f).bufferSlot y = s.bufferSlot y := rfl
@[simp] theorem State.entry_modPort (s : State) (p : PortId) (f : PortUnit → PortUnit) (y : Fin 8) :
    (s.modPort p f).entry y = s.entry y := rfl

/-! ## modLife -/

@[simp] theorem State.modLife_flash (s : State) (p : PortId) (f : PortLife → PortLife) : (s.modLife p f).flash = s.flash := rfl
@[simp] theorem State.modLife_freeCount (s : State) (p : PortId) (f : PortLife → PortLife) : (s.modLife p f).freeCount = s.freeCount := rfl
@[simp] theorem State.modLife_ots (s : State) (p : PortId) (f : PortLife → PortLife) : (s.modLife p f).ots = s.ots := rfl
@[simp] theorem State.modLife_loaded (s : State) (p : PortId) (f : PortLife → PortLife) : (s.modLife p f).loaded = s.loaded := rfl
@[simp] theorem State.modLife_cfg (s : State) (p : PortId) (f : PortLife → PortLife) : (s.modLife p f).cfg = s.cfg := rfl
@[simp] theorem State.modLife_fc (s : State) (p : PortId) (f : PortLife → PortLife) : (s.modLife p f).fc = s.fc := rfl
@[simp] theorem State.modLife_mu (s : State) (p : PortId) (f : PortLife → PortLife) : (s.modLife p f).mu = s.mu := rfl
@[simp] theorem State.modLife_ke (s : State) (p : PortId) (f : PortLife → PortLife) : (s.modLife p f).ke = s.ke := rfl
@[simp] theorem State.modLife_wu (s : State) (p : PortId) (f : PortLife → PortLife) : (s.modLife p f).wu = s.wu := rfl
@[simp] theorem State.modLife_iu (s : State) (p : PortId) (f : PortLife → PortLife) : (s.modLife p f).iu = s.iu := rfl
@[simp] theorem State.modLife_pb (s : State) (p : PortId) (f : PortLife → PortLife) : (s.modLife p f).pb = s.pb := rfl
@[simp] theorem State.modLife_sw (s : State) (p : PortId) (f : PortLife → PortLife) : (s.modLife p f).sw = s.sw := rfl
@[simp] theorem State.modLife_pu (s : State) (p : PortId) (f : PortLife → PortLife) : (s.modLife p f).pu = s.pu := rfl
@[simp] theorem State.modLife_ports (s : State) (p : PortId) (f : PortLife → PortLife) : (s.modLife p f).ports = s.ports := rfl
@[simp] theorem State.modLife_pending (s : State) (p : PortId) (f : PortLife → PortLife) : (s.modLife p f).pending = s.pending := rfl
@[simp] theorem State.modLife_lc_fallbackUsed (s : State) (p : PortId) (f : PortLife → PortLife) :
    (s.modLife p f).lc.fallbackUsed = s.lc.fallbackUsed := rfl
@[simp] theorem State.modLife_lc_cause (s : State) (p : PortId) (f : PortLife → PortLife) :
    (s.modLife p f).lc.cause = s.lc.cause := rfl
@[simp] theorem State.modLife_lc_causePort (s : State) (p : PortId) (f : PortLife → PortLife) :
    (s.modLife p f).lc.causePort = s.lc.causePort := rfl
@[simp] theorem State.life_modLife_self (s : State) (p : PortId) (f : PortLife → PortLife) :
    (s.modLife p f).life p = f (s.life p) := updAt_self _ _ _
theorem State.life_modLife_ne (s : State) (p y : PortId) (f : PortLife → PortLife) (h : p ≠ y) :
    (s.modLife p f).life y = s.life y := updAt_ne _ _ _ _ h
theorem State.life_modLife (s : State) (p y : PortId) (f : PortLife → PortLife) :
    (s.modLife p f).life y = if p = y then f (s.life y) else s.life y := updAt_get _ _ _ _
@[simp] theorem State.modLife_modLife (s : State) (p : PortId) (f g : PortLife → PortLife) :
    (s.modLife p f).modLife p g = s.modLife p (fun u => g (f u)) := by
  simp [State.modLife]
@[simp] theorem State.image_modLife (s : State) (p : PortId) (f : PortLife → PortLife) (y : Tag) :
    (s.modLife p f).image y = s.image y := rfl
@[simp] theorem State.staging_modLife (s : State) (p : PortId) (f : PortLife → PortLife) (y : StagingId) :
    (s.modLife p f).staging y = s.staging y := rfl
@[simp] theorem State.port_modLife (s : State) (p : PortId) (f : PortLife → PortLife) (y : PortId) :
    (s.modLife p f).port y = s.port y := rfl
@[simp] theorem State.bufferSlot_modLife (s : State) (p : PortId) (f : PortLife → PortLife) (y : Fin 64) :
    (s.modLife p f).bufferSlot y = s.bufferSlot y := rfl
@[simp] theorem State.entry_modLife (s : State) (p : PortId) (f : PortLife → PortLife) (y : Fin 8) :
    (s.modLife p f).entry y = s.entry y := rfl

/-! ## modSlot -/

@[simp] theorem State.modSlot_flash (s : State) (n : Fin 64) (f : BufferSlot → BufferSlot) : (s.modSlot n f).flash = s.flash := rfl
@[simp] theorem State.modSlot_freeCount (s : State) (n : Fin 64) (f : BufferSlot → BufferSlot) : (s.modSlot n f).freeCount = s.freeCount := rfl
@[simp] theorem State.modSlot_ots (s : State) (n : Fin 64) (f : BufferSlot → BufferSlot) : (s.modSlot n f).ots = s.ots := rfl
@[simp] theorem State.modSlot_loaded (s : State) (n : Fin 64) (f : BufferSlot → BufferSlot) : (s.modSlot n f).loaded = s.loaded := rfl
@[simp] theorem State.modSlot_cfg (s : State) (n : Fin 64) (f : BufferSlot → BufferSlot) : (s.modSlot n f).cfg = s.cfg := rfl
@[simp] theorem State.modSlot_fc (s : State) (n : Fin 64) (f : BufferSlot → BufferSlot) : (s.modSlot n f).fc = s.fc := rfl
@[simp] theorem State.modSlot_mu (s : State) (n : Fin 64) (f : BufferSlot → BufferSlot) : (s.modSlot n f).mu = s.mu := rfl
@[simp] theorem State.modSlot_ke (s : State) (n : Fin 64) (f : BufferSlot → BufferSlot) : (s.modSlot n f).ke = s.ke := rfl
@[simp] theorem State.modSlot_wu (s : State) (n : Fin 64) (f : BufferSlot → BufferSlot) : (s.modSlot n f).wu = s.wu := rfl
@[simp] theorem State.modSlot_iu (s : State) (n : Fin 64) (f : BufferSlot → BufferSlot) : (s.modSlot n f).iu = s.iu := rfl
@[simp] theorem State.modSlot_sw (s : State) (n : Fin 64) (f : BufferSlot → BufferSlot) : (s.modSlot n f).sw = s.sw := rfl
@[simp] theorem State.modSlot_pu (s : State) (n : Fin 64) (f : BufferSlot → BufferSlot) : (s.modSlot n f).pu = s.pu := rfl
@[simp] theorem State.modSlot_lc (s : State) (n : Fin 64) (f : BufferSlot → BufferSlot) : (s.modSlot n f).lc = s.lc := rfl
@[simp] theorem State.modSlot_ports (s : State) (n : Fin 64) (f : BufferSlot → BufferSlot) : (s.modSlot n f).ports = s.ports := rfl
@[simp] theorem State.modSlot_pending (s : State) (n : Fin 64) (f : BufferSlot → BufferSlot) : (s.modSlot n f).pending = s.pending := rfl
@[simp] theorem State.modSlot_pb_lru (s : State) (n : Fin 64) (f : BufferSlot → BufferSlot) :
    (s.modSlot n f).pb.lru = s.pb.lru := rfl
@[simp] theorem State.modSlot_pb_records (s : State) (n : Fin 64) (f : BufferSlot → BufferSlot) :
    (s.modSlot n f).pb.records = s.pb.records := rfl
@[simp] theorem State.modSlot_pb_prefetch (s : State) (n : Fin 64) (f : BufferSlot → BufferSlot) :
    (s.modSlot n f).pb.prefetch = s.pb.prefetch := rfl
@[simp] theorem State.modSlot_pb_scratch (s : State) (n : Fin 64) (f : BufferSlot → BufferSlot) :
    (s.modSlot n f).pb.scratch = s.pb.scratch := rfl
@[simp] theorem State.bufferSlot_modSlot_self (s : State) (n : Fin 64) (f : BufferSlot → BufferSlot) :
    (s.modSlot n f).bufferSlot n = f (s.bufferSlot n) := updAt_self _ _ _
theorem State.bufferSlot_modSlot_ne (s : State) (n y : Fin 64) (f : BufferSlot → BufferSlot) (h : n ≠ y) :
    (s.modSlot n f).bufferSlot y = s.bufferSlot y := updAt_ne _ _ _ _ h
theorem State.bufferSlot_modSlot (s : State) (n y : Fin 64) (f : BufferSlot → BufferSlot) :
    (s.modSlot n f).bufferSlot y = if n = y then f (s.bufferSlot y) else s.bufferSlot y := updAt_get _ _ _ _
@[simp] theorem State.modSlot_modSlot (s : State) (n : Fin 64) (f g : BufferSlot → BufferSlot) :
    (s.modSlot n f).modSlot n g = s.modSlot n (fun u => g (f u)) := by
  simp [State.modSlot]
@[simp] theorem State.image_modSlot (s : State) (n : Fin 64) (f : BufferSlot → BufferSlot) (y : Tag) :
    (s.modSlot n f).image y = s.image y := rfl
@[simp] theorem State.staging_modSlot (s : State) (n : Fin 64) (f : BufferSlot → BufferSlot) (y : StagingId) :
    (s.modSlot n f).staging y = s.staging y := rfl
@[simp] theorem State.port_modSlot (s : State) (n : Fin 64) (f : BufferSlot → BufferSlot) (y : PortId) :
    (s.modSlot n f).port y = s.port y := rfl
@[simp] theorem State.life_modSlot (s : State) (n : Fin 64) (f : BufferSlot → BufferSlot) (y : PortId) :
    (s.modSlot n f).life y = s.life y := rfl
@[simp] theorem State.entry_modSlot (s : State) (n : Fin 64) (f : BufferSlot → BufferSlot) (y : Fin 8) :
    (s.modSlot n f).entry y = s.entry y := rfl

/-! ## modEntry -/

@[simp] theorem State.modEntry_flash (s : State) (e : Fin 8) (f : CacheEntry → CacheEntry) : (s.modEntry e f).flash = s.flash := rfl
@[simp] theorem State.modEntry_freeCount (s : State) (e : Fin 8) (f : CacheEntry → CacheEntry) : (s.modEntry e f).freeCount = s.freeCount := rfl
@[simp] theorem State.modEntry_ots (s : State) (e : Fin 8) (f : CacheEntry → CacheEntry) : (s.modEntry e f).ots = s.ots := rfl
@[simp] theorem State.modEntry_loaded (s : State) (e : Fin 8) (f : CacheEntry → CacheEntry) : (s.modEntry e f).loaded = s.loaded := rfl
@[simp] theorem State.modEntry_cfg (s : State) (e : Fin 8) (f : CacheEntry → CacheEntry) : (s.modEntry e f).cfg = s.cfg := rfl
@[simp] theorem State.modEntry_fc (s : State) (e : Fin 8) (f : CacheEntry → CacheEntry) : (s.modEntry e f).fc = s.fc := rfl
@[simp] theorem State.modEntry_mu (s : State) (e : Fin 8) (f : CacheEntry → CacheEntry) : (s.modEntry e f).mu = s.mu := rfl
@[simp] theorem State.modEntry_ke (s : State) (e : Fin 8) (f : CacheEntry → CacheEntry) : (s.modEntry e f).ke = s.ke := rfl
@[simp] theorem State.modEntry_wu (s : State) (e : Fin 8) (f : CacheEntry → CacheEntry) : (s.modEntry e f).wu = s.wu := rfl
@[simp] theorem State.modEntry_pb (s : State) (e : Fin 8) (f : CacheEntry → CacheEntry) : (s.modEntry e f).pb = s.pb := rfl
@[simp] theorem State.modEntry_sw (s : State) (e : Fin 8) (f : CacheEntry → CacheEntry) : (s.modEntry e f).sw = s.sw := rfl
@[simp] theorem State.modEntry_pu (s : State) (e : Fin 8) (f : CacheEntry → CacheEntry) : (s.modEntry e f).pu = s.pu := rfl
@[simp] theorem State.modEntry_lc (s : State) (e : Fin 8) (f : CacheEntry → CacheEntry) : (s.modEntry e f).lc = s.lc := rfl
@[simp] theorem State.modEntry_ports (s : State) (e : Fin 8) (f : CacheEntry → CacheEntry) : (s.modEntry e f).ports = s.ports := rfl
@[simp] theorem State.modEntry_pending (s : State) (e : Fin 8) (f : CacheEntry → CacheEntry) : (s.modEntry e f).pending = s.pending := rfl
@[simp] theorem State.modEntry_iu_lru (s : State) (e : Fin 8) (f : CacheEntry → CacheEntry) :
    (s.modEntry e f).iu.lru = s.iu.lru := rfl
@[simp] theorem State.modEntry_iu_waitGroup (s : State) (e : Fin 8) (f : CacheEntry → CacheEntry) :
    (s.modEntry e f).iu.waitGroup = s.iu.waitGroup := rfl
@[simp] theorem State.modEntry_iu_lane (s : State) (e : Fin 8) (f : CacheEntry → CacheEntry) :
    (s.modEntry e f).iu.lane = s.iu.lane := rfl
@[simp] theorem State.modEntry_iu_park (s : State) (e : Fin 8) (f : CacheEntry → CacheEntry) :
    (s.modEntry e f).iu.park = s.iu.park := rfl
@[simp] theorem State.entry_modEntry_self (s : State) (e : Fin 8) (f : CacheEntry → CacheEntry) :
    (s.modEntry e f).entry e = f (s.entry e) := updAt_self _ _ _
theorem State.entry_modEntry_ne (s : State) (e y : Fin 8) (f : CacheEntry → CacheEntry) (h : e ≠ y) :
    (s.modEntry e f).entry y = s.entry y := updAt_ne _ _ _ _ h
theorem State.entry_modEntry (s : State) (e y : Fin 8) (f : CacheEntry → CacheEntry) :
    (s.modEntry e f).entry y = if e = y then f (s.entry y) else s.entry y := updAt_get _ _ _ _
@[simp] theorem State.modEntry_modEntry (s : State) (e : Fin 8) (f g : CacheEntry → CacheEntry) :
    (s.modEntry e f).modEntry e g = s.modEntry e (fun u => g (f u)) := by
  simp [State.modEntry]
@[simp] theorem State.image_modEntry (s : State) (e : Fin 8) (f : CacheEntry → CacheEntry) (y : Tag) :
    (s.modEntry e f).image y = s.image y := rfl
@[simp] theorem State.staging_modEntry (s : State) (e : Fin 8) (f : CacheEntry → CacheEntry) (y : StagingId) :
    (s.modEntry e f).staging y = s.staging y := rfl
@[simp] theorem State.port_modEntry (s : State) (e : Fin 8) (f : CacheEntry → CacheEntry) (y : PortId) :
    (s.modEntry e f).port y = s.port y := rfl
@[simp] theorem State.life_modEntry (s : State) (e : Fin 8) (f : CacheEntry → CacheEntry) (y : PortId) :
    (s.modEntry e f).life y = s.life y := rfl
@[simp] theorem State.bufferSlot_modEntry (s : State) (e : Fin 8) (f : CacheEntry → CacheEntry) (y : Fin 64) :
    (s.modEntry e f).bufferSlot y = s.bufferSlot y := rfl

/-! ## showInitialStates -/

@[simp] theorem State.showInitialStates_flash (s : State) : s.showInitialStates.flash = s.flash := rfl
@[simp] theorem State.showInitialStates_freeCount (s : State) : s.showInitialStates.freeCount = s.freeCount := rfl
@[simp] theorem State.showInitialStates_ots (s : State) : s.showInitialStates.ots = s.ots := rfl
@[simp] theorem State.showInitialStates_loaded (s : State) : s.showInitialStates.loaded = s.loaded := rfl
@[simp] theorem State.showInitialStates_cfg (s : State) : s.showInitialStates.cfg = s.cfg := rfl
@[simp] theorem State.showInitialStates_fc (s : State) : s.showInitialStates.fc = s.fc := rfl
@[simp] theorem State.showInitialStates_mu (s : State) : s.showInitialStates.mu = s.mu := rfl
@[simp] theorem State.showInitialStates_ke (s : State) : s.showInitialStates.ke = s.ke := rfl
@[simp] theorem State.showInitialStates_wu (s : State) : s.showInitialStates.wu = s.wu := rfl
@[simp] theorem State.showInitialStates_iu (s : State) : s.showInitialStates.iu = s.iu := rfl
@[simp] theorem State.showInitialStates_pb (s : State) : s.showInitialStates.pb = s.pb := rfl
@[simp] theorem State.showInitialStates_sw (s : State) : s.showInitialStates.sw = s.sw := rfl
@[simp] theorem State.showInitialStates_pu (s : State) : s.showInitialStates.pu = s.pu := rfl
@[simp] theorem State.showInitialStates_ports (s : State) : s.showInitialStates.ports = s.ports := rfl
@[simp] theorem State.showInitialStates_pending (s : State) : s.showInitialStates.pending = s.pending := rfl
@[simp] theorem State.showInitialStates_lc_fallbackUsed (s : State) : s.showInitialStates.lc.fallbackUsed = s.lc.fallbackUsed := rfl
@[simp] theorem State.showInitialStates_lc_cause (s : State) : s.showInitialStates.lc.cause = s.lc.cause := rfl
@[simp] theorem State.showInitialStates_lc_causePort (s : State) : s.showInitialStates.lc.causePort = s.lc.causePort := rfl
@[simp] theorem State.life_showInitialStates (s : State) (p : PortId) : s.showInitialStates.life p = s.ots.initialLife p := by
  simp [State.life, State.showInitialStates]
@[simp] theorem State.port_showInitialStates (s : State) (p : PortId) : s.showInitialStates.port p = s.port p := rfl
@[simp] theorem State.image_showInitialStates (s : State) (t : Tag) : s.showInitialStates.image t = s.image t := rfl
@[simp] theorem State.staging_showInitialStates (s : State) (w : StagingId) : s.showInitialStates.staging w = s.staging w := rfl

end Sys2Proof.Machine
end

