-- ==== Sys2Proof/Laws/Memory.lean ====
section
/-! SUPPORT. The sparse maps of the flash and the page state map: every operation keeps the canonical form, a read after a
write gives what was written, and a write leaves every other place alone. -/

namespace Sys2Proof.Machine

/-! ## Sparse maps -/

/-- The canonical form: keys strictly rising, no entry equal to the default. -/
theorem Sparse.wf_iff {α : Type} [DecidableEq α] (d : α) (m : List (Nat × α)) :
    Sparse.wf d m = true ↔ m.Pairwise (fun a b => a.1 < b.1) ∧ ∀ c ∈ m, c.2 ≠ d := by
  induction m with
  | nil => simp [Sparse.wf]
  | cons x rest ih =>
    obtain ⟨k, v⟩ := x
    cases rest with
    | nil => simp [Sparse.wf]
    | cons y rest =>
      obtain ⟨k', v'⟩ := y
      simp only [Sparse.wf, Bool.and_eq_true, bne_iff_ne, decide_eq_true_eq, ih]
      constructor
      · rintro ⟨hv, hk, hp, hd⟩
        refine ⟨List.pairwise_cons.2 ⟨?_, hp⟩, ?_⟩
        · intro c hc
          rcases List.mem_cons.1 hc with rfl | hc
          · exact hk
          · exact Nat.lt_trans hk ((List.pairwise_cons.1 hp).1 c hc)
        · intro c hc
          rcases List.mem_cons.1 hc with rfl | hc
          · exact hv
          · exact hd c hc
      · rintro ⟨hp, hd⟩
        obtain ⟨h1, h2⟩ := List.pairwise_cons.1 hp
        exact ⟨hd (k, v) (by simp), h1 (k', v') (by simp), h2, fun c hc => hd c (List.mem_cons_of_mem _ hc)⟩

/-- Entries left out leave the canonical form. -/
theorem Sparse.wf_filter {α : Type} [DecidableEq α] (d : α) (m : List (Nat × α)) (q : Nat × α → Bool)
    (h : Sparse.wf d m = true) : Sparse.wf d (m.filter q) = true := by
  rw [Sparse.wf_iff] at h ⊢
  exact ⟨h.1.filter _, fun c hc => h.2 c (List.mem_filter.1 hc).1⟩

/-- Setting a span to the default keeps the canonical form. -/
theorem Sparse.wf_erase {α : Type} [DecidableEq α] (d : α) (m : List (Nat × α)) (lo n : Nat)
    (h : Sparse.wf d m = true) : Sparse.wf d (Sparse.erase m lo n) = true := Sparse.wf_filter d m _ h

/-- The cells of values from `lo` on lie in their span and do not hold the default. -/
theorem Sparse.mem_cells {α : Type} [DecidableEq α] (d : α) (vals : List α) (lo : Nat) (c : Nat × α)
    (h : c ∈ Sparse.cells d lo vals) : lo ≤ c.1 ∧ c.1 < lo + vals.length ∧ c.2 ≠ d := by
  induction vals generalizing lo with
  | nil => simp [Sparse.cells] at h
  | cons v rest ih =>
    simp only [Sparse.cells] at h
    split at h
    · have := ih _ h
      simp only [List.length_cons]
      exact ⟨by omega, by omega, this.2.2⟩
    · next hv =>
      rcases List.mem_cons.1 h with rfl | h
      · simp [hv]
      · have := ih _ h
        simp only [List.length_cons]
        exact ⟨by omega, by omega, this.2.2⟩

/-- The cells of values are in canonical form. -/
theorem Sparse.pairwise_cells {α : Type} [DecidableEq α] (d : α) (vals : List α) (lo : Nat) :
    (Sparse.cells d lo vals).Pairwise (fun a b => a.1 < b.1) := by
  induction vals generalizing lo with
  | nil => simp [Sparse.cells]
  | cons v rest ih =>
    simp only [Sparse.cells]
    split
    · exact ih _
    · refine List.pairwise_cons.2 ⟨fun c hc => ?_, ih _⟩
      have := Sparse.mem_cells d rest (lo + 1) c hc
      simp only; omega

/-- Replacing a span keeps the canonical form. -/
theorem Sparse.wf_splice {α : Type} [DecidableEq α] (d : α) (m : List (Nat × α)) (lo : Nat) (vals : List α)
    (h : Sparse.wf d m = true) : Sparse.wf d (Sparse.splice d m lo vals) = true := by
  rw [Sparse.wf_iff] at h ⊢
  constructor
  · simp only [Sparse.splice, List.append_assoc]
    refine List.pairwise_append.2 ⟨h.1.filter _, List.pairwise_append.2 ⟨Sparse.pairwise_cells d vals lo, h.1.filter _, ?_⟩, ?_⟩
    · intro a ha b hb
      have h1 := Sparse.mem_cells d vals lo a ha
      have h2 := (List.mem_filter.1 hb).2
      simp only [decide_eq_true_eq] at h2
      omega
    · intro a ha b hb
      have h1 := (List.mem_filter.1 ha).2
      simp only [decide_eq_true_eq] at h1
      rcases List.mem_append.1 hb with hb | hb
      · have := Sparse.mem_cells d vals lo b hb; omega
      · have h2 := (List.mem_filter.1 hb).2
        simp only [decide_eq_true_eq] at h2
        omega
  · intro c hc
    simp only [Sparse.splice, List.append_assoc, List.mem_append] at hc
    rcases hc with hc | hc | hc
    · exact h.2 c (List.mem_filter.1 hc).1
    · exact (Sparse.mem_cells d vals lo c hc).2.2
    · exact h.2 c (List.mem_filter.1 hc).1

/-- A filter on keys leaves the values of the keys it keeps and the default at the others. -/
theorem Sparse.get_filter {α : Type} (d : α) (m : List (Nat × α)) (q : Nat → Bool) (i : Nat) :
    Sparse.get d (m.filter (fun c => q c.1)) i = if q i then Sparse.get d m i else d := by
  induction m with
  | nil => simp [Sparse.get]
  | cons x rest ih =>
    obtain ⟨k, v⟩ := x
    by_cases hq : q k = true
    · simp only [List.filter_cons, hq, if_true, Sparse.get, ih]
      by_cases hi : i = k
      · subst hi; simp [hq]
      · simp [hi]
    · rw [List.filter_cons_of_neg (by simpa using hq), ih]
      by_cases hi : i = k
      · subst hi; simp [hq]
      · simp [Sparse.get, hi]

/-- Reading after a span has been set to the default. -/
theorem Sparse.get_erase {α : Type} (d : α) (m : List (Nat × α)) (lo n i : Nat) :
    Sparse.get d (Sparse.erase m lo n) i = if lo ≤ i ∧ i < lo + n then d else Sparse.get d m i := by
  unfold Sparse.erase
  rw [Sparse.get_filter d m (fun k => !(decide (lo ≤ k) && decide (k < lo + n))) i]
  by_cases h : lo ≤ i ∧ i < lo + n
  · simp [h]
  · have h' : (!(decide (lo ≤ i) && decide (i < lo + n))) = true := by
      simp only [Bool.not_eq_true', Bool.and_eq_false_iff, decide_eq_false_iff_not]; omega
    simp [h, h']

/-- Reading a map that is followed by another: the first that lists the key answers. -/
theorem Sparse.get_append {α : Type} (d : α) (a b : List (Nat × α)) (i : Nat) :
    Sparse.get d (a ++ b) i = if a.any (fun c => c.1 == i) then Sparse.get d a i else Sparse.get d b i := by
  induction a with
  | nil => simp
  | cons x rest ih =>
    obtain ⟨k, v⟩ := x
    by_cases h : i = k
    · subst h; simp [Sparse.get]
    · have h' : k ≠ i := fun e => h e.symm
      simp only [List.cons_append, Sparse.get, h, if_false, List.any_cons, Bool.false_or, ih, beq_eq_false_iff_ne.2 h']

/-- A key that no entry lists has the default. -/
theorem Sparse.get_unlisted {α : Type} (d : α) (m : List (Nat × α)) (i : Nat) (h : ∀ c ∈ m, c.1 ≠ i) :
    Sparse.get d m i = d := by
  induction m with
  | nil => rfl
  | cons x rest ih =>
    obtain ⟨k, v⟩ := x
    have hk : i ≠ k := fun e => h (k, v) (by simp) e.symm
    simp [Sparse.get, hk, ih (fun c hc => h c (List.mem_cons_of_mem _ hc))]

/-- Reading the cells of values. -/
theorem Sparse.get_cells {α : Type} [DecidableEq α] (d : α) (vals : List α) (lo i : Nat) :
    Sparse.get d (Sparse.cells d lo vals) i = if lo ≤ i then vals.getD (i - lo) d else d := by
  induction vals generalizing lo with
  | nil => simp [Sparse.cells, Sparse.get]
  | cons v rest ih =>
    simp only [Sparse.cells]
    by_cases hi : i = lo
    · subst hi
      split
      · next hv => rw [ih]; simp [hv]
      · simp [Sparse.get]
    · have hn : Sparse.get d (if v = d then Sparse.cells d (lo + 1) rest else (lo, v) :: Sparse.cells d (lo + 1) rest) i
          = Sparse.get d (Sparse.cells d (lo + 1) rest) i := by
        split
        · rfl
        · simp [Sparse.get, hi]
      rw [hn, ih]
      by_cases hl : lo ≤ i
      · have h1 : lo + 1 ≤ i := by omega
        have h2 : i - lo = (i - (lo + 1)) + 1 := by omega
        simp [hl, h1, h2]
      · have h1 : ¬ lo + 1 ≤ i := by omega
        simp [hl, h1]

/-- Reading after a span has been replaced. -/
theorem Sparse.get_splice {α : Type} [DecidableEq α] (d : α) (m : List (Nat × α)) (lo : Nat) (vals : List α) (i : Nat) :
    Sparse.get d (Sparse.splice d m lo vals) i
      = if lo ≤ i ∧ i < lo + vals.length then vals.getD (i - lo) d else Sparse.get d m i := by
  have e1 := Sparse.get_filter d m (fun k => decide (k < lo)) i
  have e2 := Sparse.get_filter d m (fun k => decide (lo + vals.length ≤ k)) i
  simp only [Sparse.splice, List.append_assoc]
  by_cases hlo : i < lo
  · have hc : Sparse.get d (Sparse.cells d lo vals ++ m.filter (fun c => decide (lo + vals.length ≤ c.1))) i = d := by
      refine Sparse.get_unlisted d _ i (fun c hc => ?_)
      rcases List.mem_append.1 hc with hc | hc
      · have := Sparse.mem_cells d vals lo c hc; omega
      · have h2 := (List.mem_filter.1 hc).2
        simp only [decide_eq_true_eq] at h2
        omega
    rw [Sparse.get_append, hc, e1]
    have hn : ¬ (lo ≤ i ∧ i < lo + vals.length) := by omega
    simp only [hlo, decide_true, if_true, hn, if_false]
    split
    · rfl
    · next hany =>
      refine (Sparse.get_unlisted d m i (fun c hc e => hany ?_)).symm
      rw [List.any_eq_true]
      exact ⟨c, List.mem_filter.2 ⟨hc, by simp [e, hlo]⟩, by simp [e]⟩
  · have ha : (m.filter (fun c => decide (c.1 < lo))).any (fun c => c.1 == i) = false := by
      rw [List.any_eq_false]
      intro c hc
      have h2 := (List.mem_filter.1 hc).2
      simp only [decide_eq_true_eq] at h2
      simp only [beq_iff_eq]
      omega
    rw [Sparse.get_append, ha]
    simp only [Bool.false_eq_true, if_false]
    by_cases hin : i < lo + vals.length
    · have hl : lo ≤ i := by omega
      rw [Sparse.get_append]
      simp only [hl, hin, and_self, if_true]
      split
      · rw [Sparse.get_cells]; simp [hl]
      · next hany =>
        have hd : Sparse.get d (Sparse.cells d lo vals) i = d :=
          Sparse.get_unlisted d _ i (fun c hc e => hany (List.any_eq_true.2 ⟨c, hc, by simp [e]⟩))
        rw [Sparse.get_cells] at hd
        simp only [hl, if_true] at hd
        rw [hd, e2]
        have : ¬ lo + vals.length ≤ i := by omega
        simp [this]
    · have hn : ¬ (lo ≤ i ∧ i < lo + vals.length) := by omega
      have hc : (Sparse.cells d lo vals).any (fun c => c.1 == i) = false := by
        rw [List.any_eq_false]
        intro c hc
        have := Sparse.mem_cells d vals lo c hc
        simp only [beq_iff_eq]
        omega
      rw [Sparse.get_append, hc]
      have hge : lo + vals.length ≤ i := by omega
      simp only [Bool.false_eq_true, if_false, hn, e2, hge, decide_true, if_true]

/-! ## The flash -/

/-- A write keeps the canonical form. -/
theorem Memory.wf_write (m : List Host.Cell) (a : Nat) (bytes : List Byte) (h : Memory.wf m = true) :
    Memory.wf (Memory.write m a bytes) = true := Sparse.wf_splice _ m a bytes h

/-- An ERASE keeps the canonical form. -/
theorem Memory.wf_eraseSector (m : List Host.Cell) (a : Nat) (h : Memory.wf m = true) :
    Memory.wf (Memory.eraseSector m a) = true := Sparse.wf_erase _ m a 65536 h

/-- The flash right after reset is in canonical form. -/
theorem Memory.wf_reset : Memory.wf State.reset.flash = true := rfl

/-- Reading one byte after a write: a byte of the span is the byte written, every other byte is as before. -/
theorem Memory.read_write (m : List Host.Cell) (a : Nat) (bytes : List Byte) (i : Nat) :
    Memory.read (Memory.write m a bytes) i
      = if a ≤ i ∧ i < a + bytes.length then bytes.getD (i - a) 0xFF else Memory.read m i :=
  Sparse.get_splice _ m a bytes i

/-- Reading one byte after an ERASE: 0xFF in the sector, every other byte as before. -/
theorem Memory.read_eraseSector (m : List Host.Cell) (a i : Nat) :
    Memory.read (Memory.eraseSector m a) i = if a ≤ i ∧ i < a + 65536 then 0xFF else Memory.read m i :=
  Sparse.get_erase _ m a 65536 i

@[simp] theorem Memory.span_length (m : List Host.Cell) (a n : Nat) : (Memory.span m a n).length = n := by
  induction n generalizing a with
  | zero => rfl
  | succ n ih => simp [Memory.span, ih]

@[simp] theorem Memory.residue_length (k a n : Nat) : (Memory.residue k a n).length = n := by
  induction n generalizing a with
  | zero => rfl
  | succ n ih => simp [Memory.residue, ih]

@[simp] theorem Memory.programmed_length (m : List Host.Cell) (k a : Nat) (data : List Byte) :
    (Memory.programmed m k a data).length = data.length := by
  induction data generalizing a with
  | nil => rfl
  | cons b rest ih => simp [Memory.programmed, ih]

/-- A READ delivers its LENGTH of bytes. -/
@[simp] theorem Memory.deliver_length (m : List Host.Cell) (a len : Nat) (given : List Byte) :
    (Memory.deliver m a len given).length = len := by
  simp only [Memory.deliver, List.length_append, List.length_take, Memory.span_length]; omega

/-- The free byte at a place of the span left as the flash leaves it. -/
theorem Memory.residue_getD (k a n i : Nat) (h : i < n) (x : Byte) :
    (Memory.residue k a n).getD i x = Config.flashResidue k (a + i) := by
  induction n generalizing a i with
  | zero => omega
  | succ n ih =>
    cases i with
    | zero => rfl
    | succ i =>
      have := ih (a + 1) i (by omega)
      simp only [Memory.residue, List.getD_cons_succ, this]
      rw [show a + 1 + i = a + (i + 1) by omega]

/-- The byte a PROGRAM leaves at a place of its span. -/
theorem Memory.programmed_getD (m : List Host.Cell) (k a : Nat) (data : List Byte) (i : Nat) (h : i < data.length) (x : Byte) :
    (Memory.programmed m k a data).getD i x
      = Memory.programByte (Memory.read m (a + i)) (data.getD i 0) (Config.flashResidue k (a + i)) := by
  induction data generalizing a i with
  | nil => simp at h
  | cons b rest ih =>
    cases i with
    | zero => simp [Memory.programmed]
    | succ i =>
      have h' : i < rest.length := by simpa using h
      have := ih (a + 1) i h'
      simp only [Memory.programmed, List.getD_cons_succ, this]
      rw [show a + 1 + i = a + (i + 1) by omega]

/-- A bit the flash held at 1, or that the data clears, takes the data's value (R109). -/
theorem Memory.programByte_bit (old new free : Byte) (b : Nat) (h : old.getLsbD b = true ∨ new.getLsbD b = false) :
    (Memory.programByte old new free).getLsbD b = new.getLsbD b := by
  by_cases hb : b < 8
  · rcases h with h | h <;> simp [Memory.programByte, h]
  · have hb' : 8 ≤ b := by omega
    simp [Memory.programByte, BitVec.getLsbD_of_ge, hb']

/-! ## The three changes of the flash, on the state -/

/-- A span is left as the flash leaves it, each byte of it free: nothing else of the state but the count of free values
changes. -/
theorem State.disturb_spec (s : State) (a n : Nat) :
    s.disturb a n = { s with flash := (s.disturb a n).flash, freeCount := s.freeCount + 1 }
      ∧ (Memory.wf s.flash = true → Memory.wf (s.disturb a n).flash = true)
      ∧ (∀ i, i < a ∨ a + n ≤ i → Memory.read (s.disturb a n).flash i = Memory.read s.flash i)
      ∧ ∀ i, a ≤ i → i < a + n → Memory.read (s.disturb a n).flash i = Config.flashResidue s.freeCount i := by
  refine ⟨rfl, fun h => Memory.wf_write _ _ _ h, fun i hi => ?_, fun i hl hu => ?_⟩
  · have hn : ¬ (a ≤ i ∧ i < a + (Memory.residue s.freeCount a n).length) := by rw [Memory.residue_length]; omega
    exact (Memory.read_write _ _ _ _).trans (if_neg hn)
  · have hy : a ≤ i ∧ i < a + (Memory.residue s.freeCount a n).length := by rw [Memory.residue_length]; omega
    rw [State.disturb, Memory.read_write, if_pos hy, Memory.residue_getD _ _ _ _ (by omega)]
    rw [show a + (i - a) = i by omega]

/-- A PROGRAM that completes: what each bit becomes, and that nothing else changes. -/
theorem State.program_spec (s : State) (a : Nat) (data : List Byte) :
    s.program a data = { s with flash := (s.program a data).flash, freeCount := s.freeCount + 1 }
      ∧ (Memory.wf s.flash = true → Memory.wf (s.program a data).flash = true)
      ∧ (∀ i, i < a ∨ a + data.length ≤ i → Memory.read (s.program a data).flash i = Memory.read s.flash i)
      ∧ (∀ i b, i < data.length →
          ((Memory.read s.flash (a + i)).getLsbD b = true ∨ (data.getD i 0).getLsbD b = false) →
          (Memory.read (s.program a data).flash (a + i)).getLsbD b = (data.getD i 0).getLsbD b) := by
  refine ⟨rfl, fun h => Memory.wf_write _ _ _ h, fun i hi => ?_, fun i b hi hb => ?_⟩
  · have hn : ¬ (a ≤ i ∧ i < a + (Memory.programmed s.flash s.freeCount a data).length) := by
      rw [Memory.programmed_length]; omega
    exact (Memory.read_write _ _ _ _).trans (if_neg hn)
  · have hy : a ≤ a + i ∧ a + i < a + (Memory.programmed s.flash s.freeCount a data).length := by
      rw [Memory.programmed_length]; omega
    have e : Memory.read (s.program a data).flash (a + i)
        = (Memory.programmed s.flash s.freeCount a data).getD (a + i - a) 0xFF :=
      (Memory.read_write _ _ _ _).trans (if_pos hy)
    rw [e, show a + i - a = i by omega, Memory.programmed_getD _ _ _ _ _ hi]
    exact Memory.programByte_bit _ _ _ _ hb

/-- An ERASE that completes: the sector reads 0xFF, and nothing else changes. -/
theorem State.eraseSector_spec (s : State) (a : Nat) :
    s.eraseSector a = { s with flash := (s.eraseSector a).flash }
      ∧ (Memory.wf s.flash = true → Memory.wf (s.eraseSector a).flash = true)
      ∧ (∀ i, a ≤ i → i < a + 65536 → Memory.read (s.eraseSector a).flash i = 0xFF)
      ∧ (∀ i, i < a ∨ a + 65536 ≤ i → Memory.read (s.eraseSector a).flash i = Memory.read s.flash i) := by
  refine ⟨rfl, fun h => Memory.wf_eraseSector _ _ h, fun i h1 h2 => ?_, fun i hi => ?_⟩
  · exact (Memory.read_eraseSector _ _ _).trans (if_pos ⟨h1, h2⟩)
  · exact (Memory.read_eraseSector _ _ _).trans (if_neg (by omega))

/-! ## The page state map -/

/-- Setting a page's state keeps the map's canonical form and changes only that page's entry. -/
theorem State.setPageState_spec (s : State) (t : Tag) (i : Nat) (v : PageState) :
    s.setPageState t i v = { s with wu := { s.wu with pageMap := (s.setPageState t i v).wu.pageMap } }
      ∧ (Sparse.wf .unchecked s.wu.pageMap = true → Sparse.wf .unchecked (s.setPageState t i v).wu.pageMap = true)
      ∧ (∀ u j, (s.setPageState t i v).pageState u j
          = match (s.image t).range, (s.image u).range with
            | some r, some q => if q.start + j = r.start + i then v else s.pageState u j
            | _, _ => s.pageState u j) := by
  unfold State.setPageState
  cases hr : (s.image t).range with
  | none => simp
  | some r =>
    refine ⟨rfl, fun h => Sparse.wf_splice _ _ _ _ h, fun u j => ?_⟩
    have e : State.pageState
        { s with wu := { s.wu with pageMap := Sparse.splice .unchecked s.wu.pageMap (r.start + i) [v] } } u j
          = match (s.image u).range with
            | some q => Sparse.get .unchecked (Sparse.splice PageState.unchecked s.wu.pageMap (r.start + i) [v]) (q.start + j)
            | none => .unchecked := rfl
    rw [e]
    unfold State.pageState
    cases hq : (s.image u).range with
    | none => rfl
    | some q =>
      simp only [Sparse.get_splice, List.length_singleton]
      by_cases h : q.start + j = r.start + i
      · simp [h]
      · rw [if_neg (by omega), if_neg h]

/-- Clearing a range keeps the map's canonical form. -/
theorem State.clearRange_spec (s : State) (r : MapRange) :
    s.clearRange r = { s with wu := { s.wu with pageMap := (s.clearRange r).wu.pageMap } }
      ∧ (Sparse.wf .unchecked s.wu.pageMap = true → Sparse.wf .unchecked (s.clearRange r).wu.pageMap = true)
      ∧ ∀ i, Sparse.get .unchecked (s.clearRange r).wu.pageMap i
          = if r.start ≤ i ∧ i < r.start + r.length then .unchecked else Sparse.get .unchecked s.wu.pageMap i :=
  ⟨rfl, fun h => Sparse.wf_erase _ _ _ _ h, fun i => Sparse.get_erase _ _ _ _ i⟩

end Sys2Proof.Machine
end

