-- ==== Sys2Proof/Laws/Keeps.lean ====
section
/-! SUPPORT. What every operation between the take of a command and the changes of the flash, the one-time store and the
timeout record can do: it keeps the relation `Keeps`, one lemma per operation. A proof about such an operation cites
its lemma and a field of `Keeps`, and does not unfold the operation. -/

namespace Sys2Proof.Machine

/-- What an inner operation leaves of a port unit: it adds no event above bit 6 and defers no frame. -/
structure PortUnit.Keeps (u v : PortUnit) : Prop where
  events : u.events.getLsbD 7 = false → v.events.getLsbD 7 = false
  mask : v.mask = u.mask
  deferred : v.frame = .deferred → u.frame = .deferred
  select : v.selectActive = u.selectActive

/-- What an inner operation leaves of the state. -/
structure Keeps (s t : State) : Prop where
  flash : t.flash = s.flash
  freeCount : t.freeCount = s.freeCount
  ots : t.ots = s.ots
  loaded : t.loaded = s.loaded
  cfg : t.cfg = s.cfg
  pending : t.pending = s.pending
  timeout : t.fc.timeout = s.fc.timeout
  cause : t.lc.cause = s.lc.cause
  causePort : t.lc.causePort = s.lc.causePort
  step_le : s.fc.step ≤ t.fc.step
  step_top : t.fc.step ≤ max s.fc.step s.dTop
  latch : s.pu.latch = true → t.pu.latch = true
  map : Sparse.wf PageState.unchecked s.wu.pageMap = true → Sparse.wf PageState.unchecked t.wu.pageMap = true
  port : ∀ p, PortUnit.Keeps (s.port p) (t.port p)

theorem PortUnit.Keeps.refl (u : PortUnit) : PortUnit.Keeps u u := ⟨id, rfl, id, rfl⟩

theorem PortUnit.Keeps.trans {u v w : PortUnit} (a : PortUnit.Keeps u v) (b : PortUnit.Keeps v w) : PortUnit.Keeps u w :=
  ⟨b.events ∘ a.events, b.mask.trans a.mask, a.deferred ∘ b.deferred, b.select.trans a.select⟩

theorem Keeps.dTop {s t : State} (h : Keeps s t) : t.dTop = s.dTop := by simp [State.dTop, h.cfg]

theorem Keeps.holdoffH {s t : State} (h : Keeps s t) : t.holdoffH = s.holdoffH := by simp [State.holdoffH, h.cfg]

theorem Keeps.factory {s t : State} (h : Keeps s t) : t.factory = s.factory := by simp [State.factory, h.cfg, h.loaded]

theorem Keeps.formatterPort {s t : State} (h : Keeps s t) : t.formatterPort = s.formatterPort := by
  simp [State.formatterPort, h.factory, State.role, h.cfg]

theorem Keeps.refl (s : State) : Keeps s s :=
  ⟨rfl, rfl, rfl, rfl, rfl, rfl, rfl, rfl, rfl, Nat.le_refl _, Nat.le_max_left _ _, id, id, fun _ => .refl _⟩

theorem Keeps.trans {s t u : State} (a : Keeps s t) (b : Keeps t u) : Keeps s u where
  flash := b.flash.trans a.flash
  freeCount := b.freeCount.trans a.freeCount
  ots := b.ots.trans a.ots
  loaded := b.loaded.trans a.loaded
  cfg := b.cfg.trans a.cfg
  pending := b.pending.trans a.pending
  timeout := b.timeout.trans a.timeout
  cause := b.cause.trans a.cause
  causePort := b.causePort.trans a.causePort
  step_le := Nat.le_trans a.step_le b.step_le
  step_top := by have h1 := a.step_top; have h2 := b.step_top; rw [a.dTop] at h2; omega
  latch := b.latch ∘ a.latch
  map := b.map ∘ a.map
  port := fun p => (a.port p).trans (b.port p)

/-! ## Updates of one block -/

section
variable {s₀ s : State} (h : Keeps s₀ s)
include h

theorem Keeps.withMu (x : ManifestUnit) : Keeps s₀ { s with mu := x } := h.trans { Keeps.refl s with }
theorem Keeps.withKe (x : KeyEngine) : Keeps s₀ { s with ke := x } := h.trans { Keeps.refl s with }
theorem Keeps.withIu (x : IntegrityUnit) : Keeps s₀ { s with iu := x } := h.trans { Keeps.refl s with }
theorem Keeps.withPb (x : PageBuffer) : Keeps s₀ { s with pb := x } := h.trans { Keeps.refl s with }
theorem Keeps.withSw (x : SweepUnit) : Keeps s₀ { s with sw := x } := h.trans { Keeps.refl s with }
theorem Keeps.withPrintEn (b : Bool) : Keeps s₀ { s with pu := { s.pu with printEn := b } } := h.trans { Keeps.refl s with }
theorem Keeps.withLatch : Keeps s₀ { s with pu := { s.pu with latch := true } } :=
  h.trans { Keeps.refl s with latch := fun _ => rfl }
theorem Keeps.withLc (x : Vector PortLife 4) (y : Vector Bool 8) :
    Keeps s₀ { s with lc := { s.lc with ports := x, fallbackUsed := y } } := h.trans { Keeps.refl s with }
theorem Keeps.withFc (q : ClassQueues) (p : FlashPort) (e : EraseState) :
    Keeps s₀ { s with fc := { s.fc with queues := q, port := p, erase := e } } := h.trans { Keeps.refl s with }
theorem Keeps.withWu (x : WindowUnit)
    (hm : Sparse.wf PageState.unchecked s.wu.pageMap = true → Sparse.wf PageState.unchecked x.pageMap = true) :
    Keeps s₀ { s with wu := x } := h.trans { Keeps.refl s with map := hm }

theorem State.modImage_keeps (t : Tag) (f : ImageWindow → ImageWindow) : Keeps s₀ (s.modImage t f) := h.withWu _ id
theorem State.modStaging_keeps (w : StagingId) (f : StagingWindow → StagingWindow) : Keeps s₀ (s.modStaging w f) :=
  h.withWu _ id
theorem State.modLife_keeps (p : PortId) (f : PortLife → PortLife) : Keeps s₀ (s.modLife p f) := h.withLc _ _
theorem State.modSlot_keeps (n : Fin 64) (f : BufferSlot → BufferSlot) : Keeps s₀ (s.modSlot n f) := h.withPb _
theorem State.modEntry_keeps (e : Fin 8) (f : CacheEntry → CacheEntry) : Keeps s₀ (s.modEntry e f) := h.withIu _

theorem State.modPort_keeps (p : PortId) (f : PortUnit → PortUnit) (hf : ∀ u, PortUnit.Keeps u (f u)) :
    Keeps s₀ (s.modPort p f) :=
  h.trans { Keeps.refl s with
    port := fun q => by
      rw [State.port_modPort]
      split
      · exact hf _
      · exact .refl _ }

end

theorem Keeps.foldl {α : Type} {s₀ : State} (l : List α) (f : State → α → State)
    (hf : ∀ s a, Keeps s₀ s → Keeps s₀ (f s a)) {s : State} (h : Keeps s₀ s) : Keeps s₀ (l.foldl f s) := by
  induction l generalizing s with
  | nil => exact h
  | cons a rest ih => exact ih (hf s a h)

/-! ## Events -/

theorem PortUnit.settleNotice_keeps (u : PortUnit) : PortUnit.Keeps u u.settleNotice := by
  unfold PortUnit.settleNotice
  split <;> exact ⟨id, rfl, id, rfl⟩

theorem Event.bit_getLsbD_seven (ev : Event) : ev.bit.getLsbD 7 = false := by cases ev <;> rfl

theorem PortUnit.post_keeps (hH : Nat) (ev : Event) (u : PortUnit) : PortUnit.Keeps u (u.post hH ev) :=
  PortUnit.Keeps.trans
    (v := { u with events := u.events ||| ev.bit, holdoff := if u.restartsHoldoff ev then holdoffOf hH else u.holdoff })
    ⟨fun hu => by rw [BitVec.getLsbD_or, hu, Event.bit_getLsbD_seven]; rfl, rfl, id, rfl⟩ (PortUnit.settleNotice_keeps _)

/-! ## Ops.lean -/

theorem State.setPageState_keeps {s₀ s : State} (h : Keeps s₀ s) (t : Tag) (i : Nat) (v : PageState) :
    Keeps s₀ (s.setPageState t i v) := by
  rw [(s.setPageState_spec t i v).1]
  exact h.withWu _ (s.setPageState_spec t i v).2.1

theorem State.clearRange_keeps {s₀ s : State} (h : Keeps s₀ s) (r : MapRange) : Keeps s₀ (s.clearRange r) :=
  h.withWu _ (s.clearRange_spec r).2.1

/-! ## Flags.lean -/

theorem State.post_keeps {s₀ s : State} (h : Keeps s₀ s) (p : PortId) (ev : Event) : Keeps s₀ (s.post p ev) :=
  State.modPort_keeps h _ _ (PortUnit.post_keeps _ _)

theorem State.postFormatter_keeps {s₀ s : State} (hk : Keeps s₀ s) (ev : Event) :
    Keeps s₀ (s.postFormatter ev) := by
  simp only [State.postFormatter]
  repeat' split
  all_goals (with_reducible repeat first
    | exact hk | apply State.post_keeps)

theorem State.postBoth_keeps {s₀ s : State} (hk : Keeps s₀ s) (p : PortId) (ev : Event) :
    Keeps s₀ (s.postBoth p ev) := by
  simp only [State.postBoth]
  repeat' split
  all_goals (with_reducible repeat first
    | exact hk | apply State.postFormatter_keeps | apply State.post_keeps)

theorem State.violate_keeps {s₀ s : State} (hk : Keeps s₀ s) (p : PortId) (kind : ViolationKind) (detail : Nat) :
    Keeps s₀ (s.violate p kind detail) := by
  simp only [State.violate]
  repeat' split
  all_goals (with_reducible repeat first
    | exact hk | apply State.post_keeps | refine State.modPort_keeps ?_ _ _ (fun u => ⟨id, rfl, by simp, rfl⟩))

theorem State.evalPermit_keeps {s₀ s : State} (h : Keeps s₀ s) : Keeps s₀ s.evalPermit := by
  simp only [State.evalPermit]
  split
  · exact h
  · refine Keeps.foldl _ _ (fun s a hs => ?_) (h.withPrintEn _)
    split
    · exact State.post_keeps hs _ _
    · exact hs

/-! ## Slots.lean -/

theorem State.lruLeave_keeps {s₀ s : State} (hk : Keeps s₀ s) (n : Fin 64) :
    Keeps s₀ (s.lruLeave n) := by
  simp only [State.lruLeave]
  (with_reducible repeat first
    | exact hk | refine Keeps.withPb ?_ _)

theorem State.lruJoin_keeps {s₀ s : State} (hk : Keeps s₀ s) (n : Fin 64) :
    Keeps s₀ (s.lruJoin n) := by
  simp only [State.lruJoin]
  (with_reducible repeat first
    | exact hk | refine Keeps.withPb ?_ _)

theorem State.freeSlot_keeps {s₀ s : State} (hk : Keeps s₀ s) (n : Fin 64) :
    Keeps s₀ (s.freeSlot n) := by
  simp only [State.freeSlot]
  (with_reducible repeat first
    | exact hk | apply State.modSlot_keeps | apply State.lruLeave_keeps)

theorem State.takeSlot_keeps {s₀ s : State} (hk : Keeps s₀ s) (n : Fin 64) (state : BufferState) (t : Tag) (i : Nat) (data : List Byte) :
    Keeps s₀ (s.takeSlot n state t i data) := by
  simp only [State.takeSlot]
  (with_reducible repeat first
    | exact hk | apply State.modSlot_keeps | apply State.lruLeave_keeps)

theorem State.pinSlot_keeps {s₀ s : State} (hk : Keeps s₀ s) (n : Fin 64) :
    Keeps s₀ (s.pinSlot n) := by
  simp only [State.pinSlot]
  (with_reducible repeat first
    | exact hk | apply State.modSlot_keeps | apply State.lruLeave_keeps)

theorem State.unpinSlot_keeps {s₀ s : State} (hk : Keeps s₀ s) (n : Fin 64) :
    Keeps s₀ (s.unpinSlot n) := by
  simp only [State.unpinSlot]
  repeat' split
  all_goals (with_reducible repeat first
    | exact hk | apply State.modSlot_keeps | apply State.freeSlot_keeps | apply State.lruJoin_keeps)

theorem State.holdSlot_keeps {s₀ s : State} (hk : Keeps s₀ s) (n : Fin 64) (p : PortId) :
    Keeps s₀ (s.holdSlot n p) := by
  simp only [State.holdSlot]
  (with_reducible repeat first
    | exact hk | apply State.modSlot_keeps | apply State.lruLeave_keeps)

theorem State.discardSlot_keeps {s₀ s : State} (hk : Keeps s₀ s) (n : Fin 64) :
    Keeps s₀ (s.discardSlot n) := by
  simp only [State.discardSlot]
  repeat' split
  all_goals (with_reducible repeat first
    | exact hk | apply State.modSlot_keeps | apply State.freeSlot_keeps | apply State.lruLeave_keeps)

theorem State.releaseHolds_keeps {s₀ s : State} (h : Keeps s₀ s) (p : PortId) : Keeps s₀ (s.releaseHolds p) := by
  refine Keeps.foldl _ _ (fun s a hs => ?_) h
  simp only
  split
  · exact State.lruJoin_keeps (State.modSlot_keeps hs _ _) _
  · exact State.modSlot_keeps hs _ _

/-! ## Flash.lean -/

theorem State.modRecord_keeps {s₀ s : State} (hk : Keeps s₀ s) (w : WindowKey) (i : Nat) (f : FillRecord → FillRecord) :
    Keeps s₀ (s.modRecord w i f) := by
  simp only [State.modRecord]
  (with_reducible repeat first
    | exact hk | refine Keeps.withPb ?_ _)

theorem State.startLane_keeps {s₀ s : State} (hk : Keeps s₀ s) (hash : List Byte) :
    Keeps s₀ (s.startLane hash) := by
  simp only [State.startLane]
  (with_reducible repeat first
    | exact hk | refine Keeps.withIu ?_ _)

theorem State.dropLane_keeps {s₀ s : State} (hk : Keeps s₀ s) :
    Keeps s₀ (s.dropLane) := by
  simp only [State.dropLane]
  (with_reducible repeat first
    | exact hk | refine Keeps.withIu ?_ _)

theorem State.prepareDestination_keeps {s₀ s : State} (hk : Keeps s₀ s) (r : FillRecord) :
    Keeps s₀ (s.prepareDestination r) := by
  simp only [State.prepareDestination]
  repeat' split
  all_goals (with_reducible repeat first
    | exact hk | apply State.modRecord_keeps | apply State.takeSlot_keeps | refine Keeps.withPb ?_ _)

theorem State.enterReading_keeps {s₀ s : State} (hk : Keeps s₀ s) (w : WindowKey) (i : Nat) :
    Keeps s₀ (s.enterReading w i) := by
  simp only [State.enterReading]
  repeat' split
  all_goals (with_reducible repeat first
    | exact hk | apply State.prepareDestination_keeps | apply State.startLane_keeps | apply State.modRecord_keeps
    | refine Keeps.withIu ?_ _)

theorem State.startOp_keeps {s₀ s : State} (hk : Keeps s₀ s) (r : FlashRequest) :
    Keeps s₀ (s.startOp r) := by
  simp only [State.startOp]
  repeat' split
  all_goals (with_reducible repeat first
    | exact hk | apply State.enterReading_keeps | apply State.startLane_keeps | refine Keeps.withFc ?_ _ _ _)

theorem State.pick_keeps {s₀ s : State} (hk : Keeps s₀ s) :
    Keeps s₀ (s.pick) := by
  simp only [State.pick]
  repeat' split
  all_goals (with_reducible repeat first
    | exact hk | apply State.startOp_keeps | refine Keeps.withFc ?_ _ _ _)

theorem State.afterJoin_keeps {s₀ s : State} (hk : Keeps s₀ s) (c : OpClass) :
    Keeps s₀ (s.afterJoin c) := by
  simp only [State.afterJoin]
  repeat' split
  all_goals (with_reducible repeat first
    | exact hk | apply State.pick_keeps | refine Keeps.withFc ?_ _ _ _)

theorem State.request_keeps {s₀ s : State} (hk : Keeps s₀ s) (r : FlashRequest) :
    Keeps s₀ (s.request r) := by
  simp only [State.request]
  (with_reducible repeat first
    | exact hk | apply State.afterJoin_keeps | refine Keeps.withFc ?_ _ _ _)

theorem State.requestAtHead_keeps {s₀ s : State} (hk : Keeps s₀ s) (r : FlashRequest) :
    Keeps s₀ (s.requestAtHead r) := by
  simp only [State.requestAtHead]
  (with_reducible repeat first
    | exact hk | apply State.afterJoin_keeps | refine Keeps.withFc ?_ _ _ _)

theorem State.withdraw_keeps {s₀ s : State} (hk : Keeps s₀ s) (p : Purpose) :
    Keeps s₀ (s.withdraw p) := by
  simp only [State.withdraw]
  (with_reducible repeat first
    | exact hk | refine Keeps.withFc ?_ _ _ _)

theorem State.raiseRequest_keeps {s₀ s : State} (hk : Keeps s₀ s) (p : Purpose) (c : OpClass) :
    Keeps s₀ (s.raiseRequest p c) := by
  simp only [State.raiseRequest]
  repeat' split
  all_goals (with_reducible repeat first
    | exact hk | apply State.withdraw_keeps | apply State.request_keeps)

theorem State.raiseAtHead_keeps {s₀ s : State} (hk : Keeps s₀ s) (p : Purpose) (c : OpClass) :
    Keeps s₀ (s.raiseAtHead p c) := by
  simp only [State.raiseAtHead]
  repeat' split
  all_goals (with_reducible repeat first
    | exact hk | apply State.withdraw_keeps | apply State.requestAtHead_keeps)

theorem State.loseRunning_keeps {s₀ s : State} (hk : Keeps s₀ s) (p : Purpose) :
    Keeps s₀ (s.loseRunning p) := by
  simp only [State.loseRunning]
  repeat' split
  all_goals (with_reducible repeat first
    | exact hk | refine Keeps.withFc ?_ _ _ _)

theorem State.finishOp_keeps {s₀ s : State} (hk : Keeps s₀ s) :
    Keeps s₀ (s.finishOp) := by
  simp only [State.finishOp]
  (with_reducible repeat first
    | exact hk | apply State.pick_keeps | refine Keeps.withFc ?_ _ _ _)

theorem State.raiseClock_keeps {s₀ s : State} (h : Keeps s₀ s) : Keeps s₀ s.raiseClock := by
  refine h.trans { Keeps.refl s with step_le := ?_, step_top := ?_ }
  · simp only [State.raiseClock]; split <;> omega
  · simp only [State.raiseClock]; split <;> omega

/-! ## Cache.lean -/

theorem State.cacheLeave_keeps {s₀ s : State} (hk : Keeps s₀ s) (e : Fin 8) :
    Keeps s₀ (s.cacheLeave e) := by
  simp only [State.cacheLeave]
  (with_reducible repeat first
    | exact hk | refine Keeps.withIu ?_ _)

theorem State.cacheTouch_keeps {s₀ s : State} (hk : Keeps s₀ s) (e : Fin 8) :
    Keeps s₀ (s.cacheTouch e) := by
  simp only [State.cacheTouch]
  (with_reducible repeat first
    | exact hk | refine Keeps.withIu ?_ _)

theorem State.freeEntry_keeps {s₀ s : State} (hk : Keeps s₀ s) (e : Fin 8) :
    Keeps s₀ (s.freeEntry e) := by
  simp only [State.freeEntry]
  (with_reducible repeat first
    | exact hk | apply State.modEntry_keeps | apply State.cacheLeave_keeps)

theorem State.requestGroup_keeps {s₀ s : State} (hk : Keeps s₀ s) (e : Fin 8) (addr : Nat) :
    Keeps s₀ (s.requestGroup e addr) := by
  simp only [State.requestGroup]
  (with_reducible repeat first
    | exact hk | apply State.request_keeps)

theorem State.raiseEntry_keeps {s₀ s : State} (hk : Keeps s₀ s) (e : Fin 8) (k : GroupKey) (c : OpClass) :
    Keeps s₀ (s.raiseEntry e k c) := by
  simp only [State.raiseEntry]
  (with_reducible repeat first
    | exact hk | apply State.modEntry_keeps | apply State.raiseRequest_keeps)

theorem State.claimGroup_keeps {s₀ s : State} (h : Keeps s₀ s) (k : GroupKey) (addr : Nat) (c : OpClass) :
    Keeps s₀ (s.claimGroup k addr c).1 := by
  simp only [State.claimGroup]
  repeat' split
  · exact State.cacheTouch_keeps (State.modEntry_keeps h _ _) _
  · exact State.raiseEntry_keeps (State.modEntry_keeps h _ _) _ _ _
  · exact State.requestGroup_keeps (State.cacheLeave_keeps (State.modEntry_keeps h _ _) _) _ _
  · exact h

theorem State.becomeReady_keeps {s₀ s : State} (hk : Keeps s₀ s) (r : FillRecord) :
    Keeps s₀ (s.becomeReady r) := by
  simp only [State.becomeReady]
  (with_reducible repeat first
    | exact hk | apply State.request_keeps | apply State.modRecord_keeps)

theorem State.leaveWaitGroup_keeps {s₀ s : State} (hk : Keeps s₀ s) (x : GroupWaiter) :
    Keeps s₀ (s.leaveWaitGroup x) := by
  simp only [State.leaveWaitGroup]
  (with_reducible repeat first
    | exact hk | refine Keeps.withIu ?_ _)

theorem State.joinWaitGroup_keeps {s₀ s : State} (hk : Keeps s₀ s) (x : GroupWaiter) :
    Keeps s₀ (s.joinWaitGroup x) := by
  simp only [State.joinWaitGroup]
  (with_reducible repeat first
    | exact hk | refine Keeps.withIu ?_ _)

theorem State.sealGroupChecked_keeps {s₀ s : State} (hk : Keeps s₀ s) :
    Keeps s₀ (s.sealGroupChecked) := by
  simp only [State.sealGroupChecked]
  (with_reducible repeat first
    | exact hk | refine Keeps.withSw ?_ _)

theorem State.claimForRecord_keeps {s₀ s : State} (h : Keeps s₀ s) (r : FillRecord) : Keeps s₀ (s.claimForRecord r) := by
  have hc := State.claimGroup_keeps h (r.win, r.page / 64) r.groupAddr r.cls
  unfold State.claimForRecord
  split
  all_goals (rename_i heq; rw [heq] at hc)
  · exact State.becomeReady_keeps hc _
  · exact State.joinWaitGroup_keeps (State.modRecord_keeps hc _ _ _) _
  · exact State.modRecord_keeps hc _ _ _

theorem State.claimWaiter_keeps {s₀ s t : State} (h : Keeps s₀ s) (x : GroupWaiter) (ht : s.claimWaiter x = some t) :
    Keeps s₀ t := by
  cases x with
  | record w i =>
    simp only [State.claimWaiter] at ht
    cases hr : s.record w i with
    | none => rw [hr] at ht; cases ht; exact State.leaveWaitGroup_keeps h _
    | some r =>
      rw [hr] at ht
      have hc := State.claimGroup_keeps h (w, i / 64) r.groupAddr r.cls
      simp only at ht
      split at ht
      all_goals (rename_i heq; rw [heq] at hc; cases ht)
      · exact State.becomeReady_keeps (State.leaveWaitGroup_keeps hc _) _
      · exact State.modRecord_keeps (State.leaveWaitGroup_keeps hc _) _ _ _
  | sealCheck =>
    simp only [State.claimWaiter] at ht
    cases hj : s.sw.job with
    | none => rw [hj] at ht; cases ht; exact State.leaveWaitGroup_keeps h _
    | some j =>
      rw [hj] at ht
      have hc := State.claimGroup_keeps h (.staging j.handover.win, j.group) (s.stagedGroupAddr j.handover.win j.group) .sweep
      simp only at ht
      split at ht
      all_goals (rename_i heq; rw [heq] at hc; cases ht)
      · exact State.sealGroupChecked_keeps (State.leaveWaitGroup_keeps hc _)
      · exact State.leaveWaitGroup_keeps hc _

theorem State.serveRounds_keeps {s₀ : State} (n : Nat) {s : State} (h : Keeps s₀ s) : Keeps s₀ (State.serveRounds n s) := by
  induction n generalizing s with
  | zero => exact h
  | succ n ih =>
    simp only [State.serveRounds]
    split
    · exact h
    · split
      · next heq => exact ih (State.claimWaiter_keeps h _ heq)
      · exact h

theorem State.serveWaitGroup_keeps {s₀ s : State} (h : Keeps s₀ s) : Keeps s₀ s.serveWaitGroup :=
  State.serveRounds_keeps _ h

theorem State.releaseClaim_keeps {s₀ s : State} (hk : Keeps s₀ s) (k : GroupKey) :
    Keeps s₀ (s.releaseClaim k) := by
  simp only [State.releaseClaim]
  repeat' split
  all_goals (with_reducible repeat first
    | exact hk | apply State.modEntry_keeps | apply State.serveWaitGroup_keeps)

theorem State.dropEntry_keeps {s₀ s : State} (hk : Keeps s₀ s) (e : Fin 8) :
    Keeps s₀ (s.dropEntry e) := by
  simp only [State.dropEntry]
  repeat' split
  all_goals (with_reducible repeat first
    | exact hk | apply State.modEntry_keeps | apply State.freeEntry_keeps | apply State.withdraw_keeps)

theorem State.dropEntries_keeps {s₀ s : State} (h : Keeps s₀ s) (w : WindowKey) : Keeps s₀ (s.dropEntries w) :=
  State.serveWaitGroup_keeps (Keeps.foldl _ _ (fun _ e hs => State.dropEntry_keeps hs e) h)

/-! ## Fill.lean -/

theorem State.setStream_keeps {s₀ s : State} (hk : Keeps s₀ s) (p : PortId) (st : ReadStream) :
    Keeps s₀ (s.setStream p st) := by
  simp only [State.setStream]
  (with_reducible repeat first
    | exact hk | refine State.modPort_keeps ?_ _ _ (fun u => ⟨id, rfl, by simp, rfl⟩))

theorem State.setServe_keeps {s₀ s : State} (hk : Keeps s₀ s) (p : PortId) (v : Serve) :
    Keeps s₀ (s.setServe p v) := by
  simp only [State.setServe]
  (with_reducible repeat first
    | exact hk | refine State.modPort_keeps ?_ _ _ (fun u => ⟨id, rfl, by simp, rfl⟩))

theorem State.pinFor_keeps {s₀ s : State} (hk : Keeps s₀ s) (p : PortId) (n : Fin 64) :
    Keeps s₀ (s.pinFor p n) := by
  simp only [State.pinFor]
  (with_reducible repeat first
    | exact hk | apply State.setServe_keeps | apply State.pinSlot_keeps)

theorem State.reportByte_keeps {s₀ s : State} (hk : Keeps s₀ s) (p : PortId) (st : ReadStream) (r : ReadResult) :
    Keeps s₀ (s.reportByte p st r) := by
  simp only [State.reportByte]
  repeat' split
  all_goals (with_reducible repeat first
    | exact hk | apply State.violate_keeps)

theorem State.answerBad_keeps {s₀ s : State} (hk : Keeps s₀ s) (p : PortId) :
    Keeps s₀ (s.answerBad p) := by
  simp only [State.answerBad]
  repeat' split
  all_goals (with_reducible repeat first
    | exact hk | apply State.reportByte_keeps | apply State.setStream_keeps)

theorem State.createRecord_keeps {s₀ s : State} (hk : Keeps s₀ s) (w : WindowKey) (i : Nat) (c : OpClass) (origin holdFor : Option PortId) (waiters : List PortId) :
    Keeps s₀ (s.createRecord w i c origin holdFor waiters) := by
  simp only [State.createRecord]
  repeat' split
  all_goals (with_reducible repeat first
    | exact hk | apply State.serveWaitGroup_keeps | apply State.claimForRecord_keeps | refine Keeps.withPb ?_ _)

theorem State.raiseRecord_keeps {s₀ s : State} (hk : Keeps s₀ s) (w : WindowKey) (i : Nat) (c : OpClass) :
    Keeps s₀ (s.raiseRecord w i c) := by
  simp only [State.raiseRecord]
  repeat' split
  all_goals (with_reducible repeat first
    | exact hk | apply State.raiseEntry_keeps | apply State.raiseAtHead_keeps | apply State.raiseRequest_keeps
    | apply State.modRecord_keeps)

theorem State.joinRecord_keeps {s₀ s : State} (hk : Keeps s₀ s) (p : PortId) (t : Tag) (i : Nat) :
    Keeps s₀ (s.joinRecord p t i) := by
  simp only [State.joinRecord]
  (with_reducible repeat first
    | exact hk | apply State.setServe_keeps | apply State.modRecord_keeps)

theorem State.need_keeps {s₀ s : State} (hk : Keeps s₀ s) (p : PortId) (t : Tag) (i : Nat) :
    Keeps s₀ (s.need p t i) := by
  simp only [State.need]
  repeat' split
  all_goals (with_reducible repeat first
    | exact hk | apply State.joinRecord_keeps | apply State.raiseRecord_keeps | apply State.createRecord_keeps
    | apply State.pinFor_keeps | apply State.setServe_keeps | apply State.modRecord_keeps)

theorem State.originRetry_keeps {s₀ s : State} (hk : Keeps s₀ s) (origin : Option PortId) :
    Keeps s₀ (s.originRetry origin) := by
  simp only [State.originRetry]
  repeat' split
  all_goals (with_reducible repeat first
    | exact hk | apply State.need_keeps)

theorem State.startRaw_keeps {s₀ s : State} (hk : Keeps s₀ s) (p : PortId) (st : ReadStream) (logical endPage addr : Nat) :
    Keeps s₀ (s.startRaw p st logical endPage addr) := by
  simp only [State.startRaw]
  (with_reducible repeat first
    | exact hk | apply State.setStream_keeps | apply State.request_keeps)

theorem State.rawDelivers_keeps {s₀ s : State} (hk : Keeps s₀ s) (bytes : List Byte) :
    Keeps s₀ (s.rawDelivers bytes) := by
  simp only [State.rawDelivers]
  repeat' split
  all_goals (with_reducible repeat first
    | exact hk | apply State.setServe_keeps | refine Keeps.withFc ?_ _ _ _)

theorem State.classify_keeps {s₀ s : State} (hk : Keeps s₀ s) (p : PortId) :
    Keeps s₀ (s.classify p) := by
  simp only [State.classify]
  repeat' split
  all_goals (with_reducible repeat first
    | exact hk | apply State.startRaw_keeps | apply State.need_keeps | apply State.setStream_keeps)

theorem State.resolveStalled_keeps {s₀ s : State} (h : Keeps s₀ s) (t : Tag) : Keeps s₀ (s.resolveStalled t) := by
  refine Keeps.foldl _ _ (fun s a hs => ?_) h
  split
  · exact State.classify_keeps hs _
  · exact hs

theorem State.leaveRecords_keeps {s₀ s : State} (hk : Keeps s₀ s) (p : PortId) :
    Keeps s₀ (s.leaveRecords p) := by
  simp only [State.leaveRecords]
  (with_reducible repeat first
    | exact hk | refine Keeps.withPb ?_ _)

theorem State.abandonRead_keeps {s₀ s : State} (hk : Keeps s₀ s) (p : PortId) :
    Keeps s₀ (s.abandonRead p) := by
  simp only [State.abandonRead]
  repeat' split
  all_goals (with_reducible repeat first
    | exact hk | apply State.leaveRecords_keeps | apply State.loseRunning_keeps | apply State.withdraw_keeps
    | apply State.unpinSlot_keeps | refine State.modPort_keeps ?_ _ _ (fun u => ⟨id, rfl, by simp, rfl⟩))

theorem State.endFrame_keeps {s₀ s : State} (hk : Keeps s₀ s) (p : PortId) :
    Keeps s₀ (s.endFrame p) := by
  simp only [State.endFrame]
  repeat' split
  all_goals (with_reducible repeat first
    | exact hk | apply State.abandonRead_keeps | refine State.modPort_keeps ?_ _ _ (fun u => ⟨id, rfl, by simp, rfl⟩))

theorem State.removeRecord_keeps {s₀ s : State} (hk : Keeps s₀ s) (w : WindowKey) (i : Nat) :
    Keeps s₀ (s.removeRecord w i) := by
  simp only [State.removeRecord]
  (with_reducible repeat first
    | exact hk | refine Keeps.withPb ?_ _)

theorem State.freeDestination_keeps {s₀ s : State} (hk : Keeps s₀ s) (r : FillRecord) :
    Keeps s₀ (s.freeDestination r) := by
  simp only [State.freeDestination]
  repeat' split
  all_goals (with_reducible repeat first
    | exact hk | apply State.freeSlot_keeps | refine Keeps.withPb ?_ _)

theorem State.answerWaiters_keeps {s₀ s : State} (h : Keeps s₀ s) (r : FillRecord) (v : ReadResult) :
    Keeps s₀ (s.answerWaiters r v) :=
  Keeps.foldl _ _ (fun _ p hs => State.setServe_keeps hs p _) h

theorem State.withdrawRecord_keeps {s₀ s : State} (hk : Keeps s₀ s) (r : FillRecord) :
    Keeps s₀ (s.withdrawRecord r) := by
  simp only [State.withdrawRecord]
  repeat' split
  all_goals (with_reducible repeat first
    | exact hk | apply State.releaseClaim_keeps | apply State.leaveWaitGroup_keeps
    | apply State.loseRunning_keeps | apply State.withdraw_keeps | apply State.dropLane_keeps
    | refine Keeps.withIu ?_ _)

theorem State.cancelRecord_keeps {s₀ s : State} (hk : Keeps s₀ s) (w : WindowKey) (i : Nat) :
    Keeps s₀ (s.cancelRecord w i) := by
  simp only [State.cancelRecord]
  repeat' split
  all_goals (with_reducible repeat first
    | exact hk | apply State.withdrawRecord_keeps | apply State.answerWaiters_keeps
    | apply State.freeDestination_keeps | apply State.removeRecord_keeps | apply State.originRetry_keeps
    | refine Keeps.withSw ?_ _)

theorem State.dropHolds_keeps {s₀ s : State} (h : Keeps s₀ s) (p : PortId) : Keeps s₀ (s.dropHolds p) :=
  Keeps.withPb (Keeps.foldl _ _ (fun _ r hs => State.cancelRecord_keeps hs r.win r.page)
    ((State.releaseHolds_keeps h p).withPb _)) _

/-! ## Lifecycle.lean -/

theorem State.faultPort_keeps {s₀ s : State} (hk : Keeps s₀ s) (p : PortId) :
    Keeps s₀ (s.faultPort p) := by
  simp only [State.faultPort]
  repeat' split
  all_goals (with_reducible repeat first
    | exact hk | apply State.modLife_keeps | apply State.dropHolds_keeps | apply State.endFrame_keeps
    | apply State.evalPermit_keeps)

theorem State.enterRunning_keeps {s₀ s : State} (hk : Keeps s₀ s) (p : PortId) :
    Keeps s₀ (s.enterRunning p) := by
  simp only [State.enterRunning]
  repeat' split
  all_goals (with_reducible repeat first
    | exact hk | apply State.modLife_keeps | apply State.releaseHolds_keeps | apply State.evalPermit_keeps
    | refine State.modPort_keeps ?_ _ _ (fun u => ⟨id, rfl, by simp, rfl⟩))

theorem State.evalRelease_keeps {s₀ s : State} (hk : Keeps s₀ s) (p : PortId) :
    Keeps s₀ (s.evalRelease p) := by
  simp only [State.evalRelease]
  repeat' split
  all_goals (with_reducible repeat first
    | exact hk | apply State.enterRunning_keeps | apply State.faultPort_keeps)

theorem State.pageHeld_keeps {s₀ s : State} (hk : Keeps s₀ s) (p : PortId) (i : Nat) :
    Keeps s₀ (s.pageHeld p i) := by
  simp only [State.pageHeld]
  repeat' split
  all_goals (with_reducible repeat first
    | exact hk | apply State.modLife_keeps | apply State.evalRelease_keeps)

theorem State.bootPageBad_keeps {s₀ s : State} (hk : Keeps s₀ s) (p : PortId) :
    Keeps s₀ (s.bootPageBad p) := by
  simp only [State.bootPageBad]
  repeat' split
  all_goals (with_reducible repeat first
    | exact hk | apply State.faultPort_keeps)

theorem State.servePrefetch_keeps {s₀ s : State} (hk : Keeps s₀ s) (p : PortId) (t : Tag) (i : Nat) :
    Keeps s₀ (s.servePrefetch p t i) := by
  simp only [State.servePrefetch]
  repeat' split
  all_goals (with_reducible repeat first
    | exact hk | apply State.bootPageBad_keeps | apply State.pageHeld_keeps | apply State.raiseRecord_keeps
    | apply State.createRecord_keeps | apply State.modRecord_keeps | apply State.holdSlot_keeps)

theorem State.prefetchRounds_keeps {s₀ : State} (n : Nat) {s : State} (h : Keeps s₀ s) :
    Keeps s₀ (State.prefetchRounds n s) := by
  induction n generalizing s with
  | zero => exact h
  | succ n ih =>
    simp only [State.prefetchRounds]
    split
    · exact h
    · split
      · exact ih (State.servePrefetch_keeps (h.withPb _) _ _ _)
      · exact h

theorem State.serveList_keeps {s₀ s : State} (h : Keeps s₀ s) : Keeps s₀ s.serveList := State.prefetchRounds_keeps _ h

theorem State.handOverPage_keeps {s₀ s : State} (hk : Keeps s₀ s) (p : PortId) (t : Tag) (i : Nat) :
    Keeps s₀ (s.handOverPage p t i) := by
  simp only [State.handOverPage]
  repeat' split
  all_goals (with_reducible repeat first
    | exact hk | apply State.holdSlot_keeps | refine Keeps.withPb ?_ _)

theorem State.reportBootPage_keeps {s₀ s : State} (hk : Keeps s₀ s) (p : PortId) (t : Tag) (i : Nat) :
    Keeps s₀ (s.reportBootPage p t i) := by
  simp only [State.reportBootPage]
  repeat' split
  all_goals (with_reducible repeat first
    | exact hk | apply State.bootPageBad_keeps | apply State.pageHeld_keeps)

theorem State.handOver_keeps {s₀ s : State} (h : Keeps s₀ s) (p : PortId) (t : Tag) (bootSet : Nat) :
    Keeps s₀ (s.handOver p t bootSet) :=
  State.serveList_keeps (Keeps.foldl _ _ (fun _ i hs => State.reportBootPage_keeps hs p t i)
    (Keeps.foldl _ _ (fun _ i hs => State.handOverPage_keeps hs p t i) h))

theorem State.startPrefetch_keeps {s₀ s : State} (hk : Keeps s₀ s) (p : PortId) (t : Tag) (bootSet : Nat) :
    Keeps s₀ (s.startPrefetch p t bootSet) := by
  simp only [State.startPrefetch]
  (with_reducible repeat first
    | exact hk | apply State.modLife_keeps | apply State.handOver_keeps | apply State.evalRelease_keeps
    | apply State.evalPermit_keeps)

theorem State.lifeVerdict_keeps {s₀ s : State} (hk : Keeps s₀ s) (t : Tag) (bootSet : Option Nat) :
    Keeps s₀ (s.lifeVerdict t bootSet) := by
  simp only [State.lifeVerdict]
  repeat' split
  all_goals (with_reducible repeat first
    | exact hk | apply State.startPrefetch_keeps | apply State.evalRelease_keeps | apply State.faultPort_keeps)

theorem State.lifeFailed_keeps {s₀ s : State} (hk : Keeps s₀ s) (t : Tag) :
    Keeps s₀ (s.lifeFailed t) := by
  simp only [State.lifeFailed]
  repeat' split
  all_goals (with_reducible repeat first
    | exact hk | apply State.evalRelease_keeps | apply State.faultPort_keeps)

theorem State.failWindow_keeps {s₀ s : State} (hk : Keeps s₀ s) (t : Tag) :
    Keeps s₀ (s.failWindow t) := by
  simp only [State.failWindow]
  repeat' split
  all_goals (with_reducible repeat first
    | exact hk | apply State.modImage_keeps | apply State.lifeFailed_keeps | apply State.evalPermit_keeps
    | refine Keeps.withLatch ?_)

theorem State.markGood_keeps {s₀ s : State} (hk : Keeps s₀ s) (t : Tag) (i : Nat) :
    Keeps s₀ (s.markGood t i) := by
  simp only [State.markGood]
  repeat' split
  all_goals (with_reducible repeat first
    | exact hk | apply State.modImage_keeps | apply State.setPageState_keeps)

theorem State.markBad_keeps {s₀ s : State} (hk : Keeps s₀ s) (t : Tag) (i : Nat) :
    Keeps s₀ (s.markBad t i) := by
  simp only [State.markBad]
  repeat' split
  all_goals (with_reducible repeat first
    | exact hk | apply State.modImage_keeps | apply State.setPageState_keeps)

theorem State.reportCount_keeps {s₀ s : State} (hk : Keeps s₀ s) (t : Tag) :
    Keeps s₀ (s.reportCount t) := by
  simp only [State.reportCount]
  repeat' split
  all_goals (with_reducible repeat first
    | exact hk | apply State.evalRelease_keeps | apply State.evalPermit_keeps)

theorem State.reportBad_keeps {s₀ s : State} (h : Keeps s₀ s) (t : Tag) (pages : List Nat) :
    Keeps s₀ (s.reportBad t pages) := by
  have hf := Keeps.foldl pages _ (fun _ i hs => State.markBad_keeps hs t i) h
  simp only [State.reportBad]
  repeat' split
  · exact State.failWindow_keeps hf _
  · exact hf
  · exact h

/-! ## Sweep.lean -/

theorem State.setJob_keeps {s₀ s : State} (hk : Keeps s₀ s) :
    Keeps s₀ (s.setJob) := by
  simp only [State.setJob]
  repeat' split
  all_goals (with_reducible repeat first
    | exact hk | apply State.modStaging_keeps | refine Keeps.withSw ?_ _)

theorem State.queueSeal_keeps {s₀ s : State} (h : Keeps s₀ s) (x : SealHandover) : Keeps s₀ (s.queueSeal x) := by
  have h1 : Keeps s₀ { s with sw := { s.sw with sealQueue := s.sw.sealQueue ++ [x] } } := h.withSw _
  unfold State.queueSeal
  revert h1
  generalize ({ s with sw := { s.sw with sealQueue := s.sw.sealQueue ++ [x] } } : State) = a
  intro h1
  simp only
  split
  · exact State.setJob_keeps h1
  · exact h1

theorem State.releaseJobClaim_keeps {s₀ s : State} (hk : Keeps s₀ s) :
    Keeps s₀ (s.releaseJobClaim) := by
  simp only [State.releaseJobClaim]
  repeat' split
  all_goals (with_reducible repeat first
    | exact hk | apply State.releaseClaim_keeps | refine Keeps.withSw ?_ _)

theorem State.takeSealResult_keeps {s₀ s : State} (hk : Keeps s₀ s) (w : StagingId) (state : StagingState) (reason : Reason) (firstBad : Option Nat) :
    Keeps s₀ (s.takeSealResult w state reason firstBad) := by
  simp only [State.takeSealResult]
  (with_reducible repeat first
    | exact hk | apply State.modStaging_keeps | apply State.postFormatter_keeps)

theorem State.endSeal_keeps {s₀ s : State} (hk : Keeps s₀ s) (state : StagingState) (reason : Reason) (firstBad : Option Nat) :
    Keeps s₀ (s.endSeal state reason firstBad) := by
  simp only [State.endSeal]
  repeat' split
  all_goals (with_reducible repeat first
    | exact hk | apply State.takeSealResult_keeps | apply State.releaseJobClaim_keeps | apply State.setJob_keeps
    | apply State.dropEntries_keeps | refine Keeps.withSw ?_ _)

theorem State.sealPageChecked_keeps {s₀ s : State} (hk : Keeps s₀ s) (j : SealJob) :
    Keeps s₀ (s.sealPageChecked j) := by
  simp only [State.sealPageChecked]
  repeat' split
  all_goals (with_reducible repeat first
    | exact hk | apply State.modStaging_keeps | apply State.endSeal_keeps | apply State.releaseJobClaim_keeps
    | refine Keeps.withSw ?_ _)

theorem State.sweepRecordEnds_keeps {s₀ s : State} (hk : Keeps s₀ s) (w : WindowKey) (i : Nat) (o : FillOutcome) :
    Keeps s₀ (s.sweepRecordEnds w i o) := by
  simp only [State.sweepRecordEnds]
  repeat' split
  all_goals (with_reducible repeat first
    | exact hk | apply State.sealPageChecked_keeps | apply State.endSeal_keeps | refine Keeps.withSw ?_ _)

theorem State.sealGroupFails_keeps {s₀ s : State} (hk : Keeps s₀ s) (g : Nat) (reason : Reason) :
    Keeps s₀ (s.sealGroupFails g reason) := by
  simp only [State.sealGroupFails]
  (with_reducible repeat first
    | exact hk | apply State.endSeal_keeps | refine Keeps.withSw ?_ _)

theorem State.sweepPage_keeps {s₀ s : State} (hk : Keeps s₀ s) (t : Tag) (i : Nat) :
    Keeps s₀ (s.sweepPage t i) := by
  simp only [State.sweepPage]
  repeat' split
  all_goals (with_reducible repeat first
    | exact hk | apply State.modImage_keeps | apply State.releaseJobClaim_keeps | apply State.createRecord_keeps
    | refine Keeps.withSw ?_ _)

theorem State.sealPage_keeps {s₀ s : State} (hk : Keeps s₀ s) (j : SealJob) :
    Keeps s₀ (s.sealPage j) := by
  simp only [State.sealPage]
  (with_reducible repeat first
    | exact hk | apply State.createRecord_keeps | refine Keeps.withSw ?_ _)

theorem State.startGroupCheck_keeps {s₀ s : State} (h : Keeps s₀ s) (j : SealJob) : Keeps s₀ (s.startGroupCheck j) := by
  have hs : Keeps s₀ { s with sw := { s.sw with target := some (.staging j.handover.win), inFlight := .groupCheck } } :=
    h.withSw _
  have hc := State.claimGroup_keeps hs (.staging j.handover.win, j.group)
    (State.stagedGroupAddr { s with sw := { s.sw with target := some (.staging j.handover.win), inFlight := .groupCheck } }
      j.handover.win j.group) .sweep
  simp only [State.startGroupCheck]
  split
  all_goals (rename_i heq; rw [heq] at hc)
  · exact State.sealGroupChecked_keeps hc
  · exact State.joinWaitGroup_keeps hc _
  · exact hc

theorem State.pickRounds_keeps {s₀ : State} (n : Nat) {s : State} (h : Keeps s₀ s) : Keeps s₀ (State.pickRounds n s) := by
  induction n generalizing s with
  | zero => exact h
  | succ n ih =>
    simp only [State.pickRounds]
    repeat' split
    · exact State.sweepPage_keeps h _ _
    · exact State.sealPage_keeps h _
    · exact ih (State.startGroupCheck_keeps h _)
    · exact h.withSw _
    · exact h.withSw _
    · exact h

theorem State.sweepPick_keeps {s₀ s : State} (h : Keeps s₀ s) : Keeps s₀ s.sweepPick := State.pickRounds_keeps _ h

theorem State.settle_keeps {s₀ s : State} (hk : Keeps s₀ s) :
    Keeps s₀ (s.settle) := by
  simp only [State.settle]
  (with_reducible repeat first
    | exact hk | apply State.sweepPick_keeps | apply State.serveList_keeps | apply State.evalPermit_keeps)

theorem State.stopSeal_keeps {s₀ s : State} (hk : Keeps s₀ s) (w : StagingId) :
    Keeps s₀ (s.stopSeal w) := by
  simp only [State.stopSeal]
  repeat' split
  all_goals (with_reducible repeat first
    | exact hk | apply State.releaseJobClaim_keeps | apply State.setJob_keeps | apply State.cancelRecord_keeps
    | apply State.releaseClaim_keeps | apply State.leaveWaitGroup_keeps | refine Keeps.withSw ?_ _)

/-! ## FillEnd.lean -/

theorem State.slotForGood_keeps {s₀ s u : State} (h : Keeps s₀ s) (r : FillRecord) (t : Tag) (data : List Byte) (n : Fin 64)
    (hu : s.slotForGood r t data = some (n, u)) : Keeps s₀ u := by
  simp only [State.slotForGood] at hu
  repeat' split at hu
  all_goals cases hu
  all_goals exact State.takeSlot_keeps h _ _ _ _ _

theorem State.settleSlot_keeps {s₀ s : State} (h : Keeps s₀ s) (r : FillRecord) (n : Fin 64) :
    Keeps s₀ (s.settleSlot r n) := by
  have hf := fun (s : State) (h : Keeps s₀ s) => Keeps.foldl r.waiters _ (fun _ p hs => State.pinFor_keeps hs p n) h
  cases hr : r.holdFor with
  | none =>
    simp only [State.settleSlot, hr]
    split
    · exact State.lruJoin_keeps (hf _ h) _
    · exact hf _ h
  | some p =>
    simp only [State.settleSlot, hr]
    split
    · exact State.lruJoin_keeps (hf _ (State.holdSlot_keeps h n p)) _
    · exact hf _ (State.holdSlot_keeps h n p)

theorem State.reportSweep_keeps {s₀ s : State} (hk : Keeps s₀ s) (r : FillRecord) (o : FillOutcome) :
    Keeps s₀ (s.reportSweep r o) := by
  simp only [State.reportSweep]
  repeat' split
  all_goals (with_reducible repeat first
    | exact hk | apply State.sweepRecordEnds_keeps)

theorem State.placeGood_keeps {s₀ s : State} (h : Keeps s₀ s) (r : FillRecord) (t : Tag) (data : List Byte) :
    Keeps s₀ (s.placeGood r t data) := by
  unfold State.placeGood
  split
  · next heq => exact State.settleSlot_keeps (State.slotForGood_keeps h _ _ _ _ heq) _ _
  · exact h

theorem State.dropScratch_keeps {s₀ s : State} (hk : Keeps s₀ s) (r : FillRecord) :
    Keeps s₀ (s.dropScratch r) := by
  simp only [State.dropScratch]
  repeat' split
  all_goals (with_reducible repeat first
    | exact hk | refine Keeps.withPb ?_ _)

theorem State.reportHeld_keeps {s₀ s : State} (hk : Keeps s₀ s) (r : FillRecord) :
    Keeps s₀ (s.reportHeld r) := by
  simp only [State.reportHeld]
  repeat' split
  all_goals (with_reducible repeat first
    | exact hk | apply State.pageHeld_keeps)

theorem State.endGood_keeps {s₀ s : State} (hk : Keeps s₀ s) (r : FillRecord) (data : List Byte) :
    Keeps s₀ (s.endGood r data) := by
  simp only [State.endGood]
  repeat' split
  all_goals (with_reducible repeat first
    | exact hk | apply State.reportHeld_keeps | apply State.dropScratch_keeps | apply State.placeGood_keeps
    | apply State.reportSweep_keeps | apply State.reportCount_keeps | apply State.markGood_keeps
    | apply State.removeRecord_keeps | apply State.originRetry_keeps | apply State.releaseClaim_keeps
    | refine Keeps.withPb ?_ _)

theorem State.leaveBad_keeps {s₀ s : State} (h : Keeps s₀ s) (r : FillRecord) : Keeps s₀ (s.leaveBad r) := by
  have h1 := State.reportSweep_keeps (Keeps.foldl r.waiters _ (fun _ p hs => State.answerBad_keeps hs p)
    (State.freeDestination_keeps (State.releaseClaim_keeps (State.removeRecord_keeps h r.win r.page) (r.win, r.page / 64)) r)) r .bad
  simp only [State.leaveBad]
  split
  · exact State.bootPageBad_keeps h1 _
  · exact h1

theorem State.leaveFault_keeps {s₀ s : State} (hk : Keeps s₀ s) (r : FillRecord) :
    Keeps s₀ (s.leaveFault r) := by
  simp only [State.leaveFault]
  repeat' split
  all_goals (with_reducible repeat first
    | exact hk | apply State.reportSweep_keeps | apply State.answerWaiters_keeps
    | apply State.freeDestination_keeps | apply State.removeRecord_keeps | apply State.releaseClaim_keeps
    | refine Keeps.withPb ?_ _)

theorem State.endBad_keeps {s₀ s : State} (hk : Keeps s₀ s) (r : FillRecord) :
    Keeps s₀ (s.endBad r) := by
  simp only [State.endBad]
  (with_reducible repeat first
    | exact hk | apply State.leaveBad_keeps | apply State.originRetry_keeps)

theorem State.endFault_keeps {s₀ s : State} (hk : Keeps s₀ s) (r : FillRecord) :
    Keeps s₀ (s.endFault r) := by
  simp only [State.endFault]
  (with_reducible repeat first
    | exact hk | apply State.leaveFault_keeps | apply State.originRetry_keeps)

theorem State.endAll_keeps {s₀ s : State} (h : Keeps s₀ s) (f : State → FillRecord → State) (l : List FillRecord)
    (hf : ∀ s r, Keeps s₀ s → Keeps s₀ (f s r)) : Keeps s₀ (s.endAll f l) := by
  refine Keeps.foldl _ _ (fun s r hs => ?_) h
  split
  · exact hf _ _ hs
  · exact hs

theorem State.groupGood_keeps {s₀ s : State} (h : Keeps s₀ s) (e : Fin 8) (k : GroupKey) (data : List Byte) :
    Keeps s₀ (s.groupGood e k data) := by
  have h1 := State.cacheTouch_keeps (State.modEntry_keeps h e (fun x => { x with state := .valid, data := data })) e
  simp only [State.groupGood]
  refine State.serveWaitGroup_keeps (State.endAll_keeps ?_ _ _ (fun _ r hs => State.becomeReady_keeps hs r))
  split
  · exact State.sealGroupChecked_keeps h1
  · exact h1

theorem State.discardGroup_keeps {s₀ s : State} (h : Keeps s₀ s) (t : Tag) (g : Nat) : Keeps s₀ (s.discardGroup t g) := by
  refine Keeps.foldl _ _ (fun s n hs => ?_) h
  repeat' split
  · exact State.bootPageBad_keeps (State.discardSlot_keeps hs _) _
  · exact State.discardSlot_keeps hs _
  · exact hs
  · exact hs

theorem State.groupEnds_keeps {s₀ s : State} (h : Keeps s₀ s) (e : Fin 8) (k : GroupKey)
    (f : State → FillRecord → State) (reason : Reason) (hf : ∀ s r, Keeps s₀ s → Keeps s₀ (f s r)) :
    Keeps s₀ (s.groupEnds e k f reason) := by
  have h1 := State.serveWaitGroup_keeps (State.endAll_keeps (State.freeEntry_keeps h e) f (s.claimants k) hf)
  refine Keeps.foldl _ _ (fun _ r hs => State.originRetry_keeps hs r.origin) ?_
  split
  · exact State.sealGroupFails_keeps h1 _ _
  · exact h1

theorem State.groupBad_keeps {s₀ s : State} (h : Keeps s₀ s) (e : Fin 8) (t : Tag) (g : Nat) :
    Keeps s₀ (s.groupBad e t g) := by
  have h1 := State.discardGroup_keeps (State.reportBad_keeps h t (groupPages (s.image t).pageCount g)) t g
  exact State.groupEnds_keeps h1 e (.image t, g) State.leaveBad .groupMismatch (fun _ r hs => State.leaveBad_keeps hs r)

theorem State.stagedGroupBad_keeps {s₀ s : State} (h : Keeps s₀ s) (e : Fin 8) (k : GroupKey) :
    Keeps s₀ (s.stagedGroupBad e k) := State.groupEnds_keeps h _ _ _ _ (fun _ r hs => State.leaveBad_keeps hs r)

theorem State.groupFault_keeps {s₀ s : State} (h : Keeps s₀ s) (e : Fin 8) (k : GroupKey) :
    Keeps s₀ (s.groupFault e k) := State.groupEnds_keeps h _ _ _ _ (fun _ r hs => State.leaveFault_keeps hs r)

theorem State.groupCompared_keeps {s₀ s : State} (hk : Keeps s₀ s) (e : Fin 8) (addr : Nat) (data : List Byte) :
    Keeps s₀ (s.groupCompared e addr data) := by
  simp only [State.groupCompared]
  repeat' split
  all_goals (with_reducible repeat first
    | exact hk | apply State.modEntry_keeps | apply State.stagedGroupBad_keeps | apply State.groupBad_keeps
    | apply State.groupGood_keeps | apply State.serveWaitGroup_keeps | apply State.requestGroup_keeps
    | apply State.freeEntry_keeps | apply State.raiseClock_keeps)

theorem State.groupFaulted_keeps {s₀ s : State} (hk : Keeps s₀ s) (e : Fin 8) :
    Keeps s₀ (s.groupFaulted e) := by
  simp only [State.groupFaulted]
  repeat' split
  all_goals (with_reducible repeat first
    | exact hk | apply State.groupFault_keeps | apply State.serveWaitGroup_keeps | apply State.freeEntry_keeps)

theorem State.reReadPage_keeps {s₀ s : State} (hk : Keeps s₀ s) (r : FillRecord) :
    Keeps s₀ (s.reReadPage r) := by
  simp only [State.reReadPage]
  (with_reducible repeat first
    | exact hk | apply State.becomeReady_keeps | apply State.raiseClock_keeps | apply State.modRecord_keeps)

theorem State.pageCompared_keeps {s₀ s : State} (h : Keeps s₀ s) (r : FillRecord) (data : List Byte) :
    Keeps s₀ (s.pageCompared r data) := by
  have h1 := State.dropLane_keeps h
  simp only [State.pageCompared]
  repeat' split
  · exact State.endGood_keeps h1 _ _
  · exact State.endAll_keeps (State.reportBad_keeps h1 _ _) _ _ (fun _ r hs => State.endBad_keeps hs r)
  · exact State.endBad_keeps h1 _
  · exact State.reReadPage_keeps h1 _

/-! ## Manifest.lean -/

theorem State.startJob_keeps {s₀ s : State} (hk : Keeps s₀ s) :
    Keeps s₀ (s.startJob) := by
  simp only [State.startJob]
  repeat' split
  all_goals (with_reducible repeat first
    | exact hk | refine Keeps.withKe ?_ _)

theorem State.submitJob_keeps {s₀ s : State} (hk : Keeps s₀ s) (j : KeyJob) :
    Keeps s₀ (s.submitJob j) := by
  simp only [State.submitJob]
  (with_reducible repeat first
    | exact hk | apply State.startJob_keeps | refine Keeps.withKe ?_ _)

theorem State.requestWalker_keeps {s₀ s : State} (hk : Keeps s₀ s) (p : Purpose) (addr len : Nat) :
    Keeps s₀ (s.requestWalker p addr len) := by
  simp only [State.requestWalker]
  (with_reducible repeat first
    | exact hk | apply State.request_keeps)

theorem State.modWalker_keeps {s₀ s : State} (hk : Keeps s₀ s) (f : Walker → Walker) :
    Keeps s₀ (s.modWalker f) := by
  simp only [State.modWalker]
  (with_reducible repeat first
    | exact hk | refine Keeps.withMu ?_ _)

theorem State.setHolder_keeps {s₀ s : State} (hk : Keeps s₀ s) (h : Holder) :
    Keeps s₀ (s.setHolder h) := by
  simp only [State.setHolder]
  (with_reducible repeat first
    | exact hk | refine Keeps.withMu ?_ _)

theorem State.grantBuffer_keeps {s₀ s : State} (hk : Keeps s₀ s) :
    Keeps s₀ (s.grantBuffer) := by
  simp only [State.grantBuffer]
  repeat' split
  all_goals (with_reducible repeat first
    | exact hk | apply State.requestWalker_keeps | refine Keeps.withMu ?_ _)

theorem State.takeSealRequest_keeps {s₀ s : State} (hk : Keeps s₀ s) :
    Keeps s₀ (s.takeSealRequest) := by
  simp only [State.takeSealRequest]
  repeat' split
  all_goals (with_reducible repeat first
    | exact hk | apply State.grantBuffer_keeps | refine Keeps.withMu ?_ _)

theorem State.readCandidate_keeps {s₀ s : State} (hk : Keeps s₀ s) (t : Tag) (x : SlotId) :
    Keeps s₀ (s.readCandidate t x) := by
  simp only [State.readCandidate]
  (with_reducible repeat first
    | exact hk | apply State.modWalker_keeps | apply State.requestWalker_keeps)

theorem State.beginTag_keeps {s₀ s : State} (hk : Keeps s₀ s) (t : Tag) (k : EntryKind) :
    Keeps s₀ (s.beginTag t k) := by
  simp only [State.beginTag]
  repeat' split
  all_goals (with_reducible repeat first
    | exact hk | apply State.readCandidate_keeps | apply State.setHolder_keeps | apply State.modWalker_keeps
    | apply State.requestWalker_keeps)

theorem State.releaseBuffer_keeps {s₀ s : State} (hk : Keeps s₀ s) :
    Keeps s₀ (s.releaseBuffer) := by
  simp only [State.releaseBuffer]
  repeat' split
  all_goals (with_reducible repeat first
    | exact hk | apply State.beginTag_keeps | apply State.grantBuffer_keeps | apply State.setHolder_keeps)

theorem State.walkerIdle_keeps {s₀ s : State} (hk : Keeps s₀ s) :
    Keeps s₀ (s.walkerIdle) := by
  simp only [State.walkerIdle]
  repeat' split
  all_goals (with_reducible repeat first
    | exact hk | apply State.setHolder_keeps | apply State.modWalker_keeps)

theorem State.handOn_keeps {s₀ s : State} (hk : Keeps s₀ s) (t : Tag) (bootSet : Option Nat) :
    Keeps s₀ (s.handOn t bootSet) := by
  simp only [State.handOn]
  repeat' split
  all_goals (with_reducible repeat first
    | exact hk | apply State.lifeVerdict_keeps | apply State.resolveStalled_keeps | apply State.evalPermit_keeps
    | apply State.postBoth_keeps)

theorem State.rejectTag_keeps {s₀ s : State} (hk : Keeps s₀ s) (t : Tag) :
    Keeps s₀ (s.rejectTag t) := by
  simp only [State.rejectTag]
  (with_reducible repeat first
    | exact hk | apply State.modImage_keeps | apply State.handOn_keeps | apply State.walkerIdle_keeps)

theorem State.newRange_keeps {s₀ s : State} (h : Keeps s₀ s) (t : Tag) (pageCount : Nat) :
    Keeps s₀ (s.newRange t pageCount) :=
  Keeps.withWu (State.modImage_keeps (State.clearRange_keeps h _) _ _) _ id

theorem State.allocate_keeps {s₀ s : State} (hk : Keeps s₀ s) (t : Tag) (k : EntryKind) (pageCount : Nat) :
    Keeps s₀ (s.allocate t k pageCount) := by
  simp only [State.allocate]
  repeat' split
  all_goals (with_reducible repeat first
    | exact hk | apply State.newRange_keeps)

theorem State.acceptTag_keeps {s₀ s : State} (hk : Keeps s₀ s) (t : Tag) (k : EntryKind) (x : SlotId) :
    Keeps s₀ (s.acceptTag t k x) := by
  simp only [State.acceptTag]
  (with_reducible repeat first
    | exact hk | apply State.modImage_keeps | apply State.allocate_keeps | apply State.handOn_keeps
    | apply State.walkerIdle_keeps)

theorem State.walkRounds_keeps {s₀ : State} (n : Nat) {s : State} (h : Keeps s₀ s) : Keeps s₀ (State.walkRounds n s) := by
  induction n generalizing s with
  | zero => exact h
  | succ n ih =>
    simp only [State.walkRounds]
    split
    · split
      · exact State.grantBuffer_keeps h
      · have h1 := fun t k => State.modWalker_keeps
          (h.withMu { s.mu with tagQueue := by assumption }) (fun w => { w with entry := some (t, k) })
        split
        · split
          · exact State.beginTag_keeps (State.modWalker_keeps (h.withMu _) _) _ _
          · exact State.modWalker_keeps (State.modWalker_keeps (h.withMu _) _) _
        · exact ih (State.grantBuffer_keeps (State.rejectTag_keeps (State.modWalker_keeps (h.withMu _) _) _))
    · exact h

theorem State.walk_keeps {s₀ s : State} (h : Keeps s₀ s) : Keeps s₀ s.walk := State.walkRounds_keeps _ h

theorem State.candidateFails_keeps {s₀ s : State} (hk : Keeps s₀ s) (r : Reason) :
    Keeps s₀ (s.candidateFails r) := by
  simp only [State.candidateFails]
  repeat' split
  all_goals (with_reducible repeat first
    | exact hk | apply State.modImage_keeps | apply State.walk_keeps | apply State.rejectTag_keeps
    | apply State.readCandidate_keeps | apply State.modWalker_keeps)

theorem State.fillBuffer_keeps {s₀ s : State} (hk : Keeps s₀ s) (bytes : List Byte) :
    Keeps s₀ (s.fillBuffer bytes) := by
  simp only [State.fillBuffer]
  (with_reducible repeat first
    | exact hk | refine Keeps.withMu ?_ _)

theorem State.walkerManifestRead_keeps {s₀ s : State} (hk : Keeps s₀ s) :
    Keeps s₀ (s.walkerManifestRead) := by
  simp only [State.walkerManifestRead]
  repeat' split
  all_goals (with_reducible repeat first
    | exact hk | apply State.candidateFails_keeps | apply State.modWalker_keeps | apply State.submitJob_keeps)

theorem State.probeEnded_keeps {s₀ s : State} (hk : Keeps s₀ s) (x : SlotId) (version : Option Nat) :
    Keeps s₀ (s.probeEnded x version) := by
  simp only [State.probeEnded]
  repeat' split
  all_goals (with_reducible repeat first
    | exact hk | apply State.modImage_keeps | apply State.walk_keeps | apply State.rejectTag_keeps
    | apply State.readCandidate_keeps | apply State.modWalker_keeps | apply State.requestWalker_keeps)

theorem State.directoryDone_keeps {s₀ s : State} (h : Keeps s₀ s) (view : Vector DirectoryRecord 8) :
    Keeps s₀ (s.directoryDone view) :=
  State.walk_keeps (State.modWalker_keeps (Keeps.withMu
    (Keeps.foldl _ _ (fun _ t hs => State.modImage_keeps hs t _) h) _) _)

theorem State.clearSealCheck_keeps {s₀ s : State} (hk : Keeps s₀ s) :
    Keeps s₀ (s.clearSealCheck) := by
  simp only [State.clearSealCheck]
  (with_reducible repeat first
    | exact hk | apply State.takeSealRequest_keeps | refine Keeps.withMu ?_ _)

theorem State.sealRejected_keeps {s₀ s : State} (hk : Keeps s₀ s) (w : StagingId) (r : Reason) :
    Keeps s₀ (s.sealRejected w r) := by
  simp only [State.sealRejected]
  (with_reducible repeat first
    | exact hk | apply State.modStaging_keeps | apply State.clearSealCheck_keeps
    | apply State.takeSealResult_keeps | apply State.dropEntries_keeps)

theorem State.sealManifestRead_keeps {s₀ s : State} (hk : Keeps s₀ s) (c : SealCheck) :
    Keeps s₀ (s.sealManifestRead c) := by
  simp only [State.sealManifestRead]
  repeat' split
  all_goals (with_reducible repeat first
    | exact hk | apply State.modStaging_keeps | apply State.sealRejected_keeps | apply State.releaseBuffer_keeps
    | apply State.submitJob_keeps | refine Keeps.withMu ?_ _)

theorem State.walkerJobEnds_keeps {s₀ s : State} (hk : Keeps s₀ s) (failure : Option Reason) :
    Keeps s₀ (s.walkerJobEnds failure) := by
  simp only [State.walkerJobEnds]
  repeat' split
  all_goals (with_reducible repeat first
    | exact hk | apply State.candidateFails_keeps | apply State.walk_keeps | apply State.acceptTag_keeps
    | apply State.readCandidate_keeps | apply State.modWalker_keeps | apply State.raiseClock_keeps)

theorem State.sealJobEnds_keeps {s₀ s : State} (hk : Keeps s₀ s) (c : SealCheck) (failure : Option Reason) :
    Keeps s₀ (s.sealJobEnds c failure) := by
  simp only [State.sealJobEnds]
  repeat' split
  all_goals (with_reducible repeat first
    | exact hk | apply State.sealRejected_keeps | apply State.clearSealCheck_keeps
    | apply State.grantBuffer_keeps | apply State.queueSeal_keeps | apply State.raiseClock_keeps
    | refine Keeps.withMu ?_ _)

theorem State.droppedJobLeaves_keeps {s₀ s : State} (hk : Keeps s₀ s) :
    Keeps s₀ (s.droppedJobLeaves) := by
  simp only [State.droppedJobLeaves]
  repeat' split
  all_goals (with_reducible repeat first
    | exact hk | apply State.clearSealCheck_keeps | apply State.submitJob_keeps | refine Keeps.withMu ?_ _)

theorem State.jobEnds_keeps {s₀ s : State} (hk : Keeps s₀ s) (j : KeyJob) (failure : Option Reason) :
    Keeps s₀ (s.jobEnds j failure) := by
  simp only [State.jobEnds]
  repeat' split
  all_goals (with_reducible repeat first
    | exact hk | apply State.droppedJobLeaves_keeps | apply State.sealJobEnds_keeps
    | apply State.walkerJobEnds_keeps | apply State.startJob_keeps | refine Keeps.withKe ?_ _)

theorem State.dropCurrentJob_keeps {s₀ s : State} (hk : Keeps s₀ s) (w : StagingId) :
    Keeps s₀ (s.dropCurrentJob w) := by
  simp only [State.dropCurrentJob]
  (with_reducible repeat first
    | exact hk | refine Keeps.withKe ?_ _)

theorem State.stopSealCheck_keeps {s₀ s : State} (h : Keeps s₀ s) (w : StagingId) : Keeps s₀ (s.stopSealCheck w) := by
  have h1 : Keeps s₀ { s with mu := { s.mu with sealRequests := s.mu.sealRequests.filter (fun x => x != w) } } :=
    h.withMu _
  unfold State.stopSealCheck
  revert h1
  generalize ({ s with mu := { s.mu with sealRequests := s.mu.sealRequests.filter (fun x => x != w) } } : State) = a
  intro h1
  simp only
  repeat' split
  · exact h1
  · exact State.clearSealCheck_keeps h1
  · exact State.clearSealCheck_keeps (State.loseRunning_keeps (h1.withFc _ _ _) _)
  · exact State.clearSealCheck_keeps h1
  · exact State.clearSealCheck_keeps (h1.withKe _)
  · exact State.dropCurrentJob_keeps (h1.withMu _) _
  · exact h1

theorem State.cancelSeal_keeps {s₀ s : State} (hk : Keeps s₀ s) (w : StagingId) :
    Keeps s₀ (s.cancelSeal w) := by
  simp only [State.cancelSeal]
  repeat' split
  all_goals (with_reducible repeat first
    | exact hk | apply State.stopSealCheck_keeps | apply State.stopSeal_keeps | apply State.dropEntries_keeps)

/-! ## Ports.lean -/

theorem State.respond_keeps {s₀ s : State} (hk : Keeps s₀ s) (p : PortId) (bytes : List Byte) :
    Keeps s₀ (s.respond p bytes) := by
  simp only [State.respond]
  (with_reducible repeat first
    | exact hk | refine State.modPort_keeps ?_ _ _ (fun u => ⟨id, rfl, by simp, rfl⟩))

theorem State.done_keeps {s₀ s : State} (hk : Keeps s₀ s) (p : PortId) (fields : List Byte) :
    Keeps s₀ (s.done p fields) := by
  simp only [State.done]
  (with_reducible repeat first
    | exact hk | apply State.respond_keeps)

theorem State.refuse_keeps {s₀ s : State} (hk : Keeps s₀ s) (p : PortId) (c : RefusalCode) :
    Keeps s₀ (s.refuse p c) := by
  simp only [State.refuse]
  (with_reducible repeat first
    | exact hk | apply State.respond_keeps)

theorem State.execute_keeps {s₀ s : State} (hk : Keeps s₀ s) (p : PortId) (code : Byte) :
    Keeps s₀ (s.execute p code) := by
  simp only [State.execute]
  (with_reducible repeat first
    | exact hk | refine State.modPort_keeps ?_ _ _ (fun u => ⟨id, rfl, by simp, rfl⟩))

theorem State.commandEnds_keeps {s₀ s : State} (hk : Keeps s₀ s) (p : PortId) (code : Byte) (bytes : List Byte) :
    Keeps s₀ (s.commandEnds p code bytes) := by
  simp only [State.commandEnds]
  repeat' split
  all_goals (with_reducible repeat first
    | exact hk | apply State.respond_keeps | refine State.modPort_keeps ?_ _ _ (fun u => ⟨id, rfl, by simp, rfl⟩))

theorem State.touch_keeps {s₀ s : State} (hk : Keeps s₀ s) (st : ReadStream) :
    Keeps s₀ (s.touch st) := by
  simp only [State.touch]
  repeat' split
  all_goals (with_reducible repeat first
    | exact hk | apply State.modImage_keeps)

theorem State.reachPage_keeps {s₀ s : State} (hk : Keeps s₀ s) (p : PortId) :
    Keeps s₀ (s.reachPage p) := by
  simp only [State.reachPage]
  repeat' split
  all_goals (with_reducible repeat first
    | exact hk | apply State.serveList_keeps | apply State.classify_keeps | apply State.setServe_keeps
    | apply State.unpinSlot_keeps | apply State.evalPermit_keeps)

theorem State.passByte_keeps {s₀ s : State} (hk : Keeps s₀ s) (p : PortId) (st : ReadStream) (value : Byte) (r : ReadResult) :
    Keeps s₀ (s.passByte p st value r) := by
  simp only [State.passByte]
  repeat' split
  all_goals (with_reducible repeat first
    | exact hk | apply State.reachPage_keeps | apply State.touch_keeps | apply State.reportByte_keeps
    | apply State.setStream_keeps | refine State.modPort_keeps ?_ _ _ (fun u => ⟨id, rfl, by simp, rfl⟩))

theorem State.passStatus_keeps {s₀ s : State} (hk : Keeps s₀ s) (p : PortId) :
    Keeps s₀ (s.passStatus p) := by
  simp only [State.passStatus]
  (with_reducible repeat first
    | exact hk | refine State.modPort_keeps ?_ _ _ (fun u => ⟨id, rfl, by simp, rfl⟩))

theorem State.passNext_keeps {s₀ s : State} (hk : Keeps s₀ s) (p : PortId) :
    Keeps s₀ (s.passNext p) := by
  simp only [State.passNext]
  repeat' split
  all_goals (with_reducible repeat first
    | exact hk | apply State.passByte_keeps)

theorem State.rawArrives_keeps {s₀ s : State} (hk : Keeps s₀ s) (p : PortId) :
    Keeps s₀ (s.rawArrives p) := by
  simp only [State.rawArrives]
  repeat' split
  all_goals (with_reducible repeat first
    | exact hk | apply State.rawDelivers_keeps)

/-! ## Staging.lean -/

theorem State.refuseOutside_keeps {s₀ s : State} (hk : Keeps s₀ s) (p : PortId) (code : Byte) :
    Keeps s₀ (s.refuseOutside p code) := by
  simp only [State.refuseOutside]
  (with_reducible repeat first
    | exact hk | apply State.refuse_keeps | apply State.violate_keeps)

theorem State.stageOpenTag_keeps {s₀ s : State} (hk : Keeps s₀ s) (p : PortId) (t : Tag) :
    Keeps s₀ (s.stageOpenTag p t) := by
  simp only [State.stageOpenTag]
  repeat' split
  all_goals (with_reducible repeat first
    | exact hk | apply State.modStaging_keeps | apply State.refuse_keeps | apply State.done_keeps)

theorem State.takeStageOpen_keeps {s₀ s : State} (hk : Keeps s₀ s) (p : PortId) (tag : Byte) :
    Keeps s₀ (s.takeStageOpen p tag) := by
  simp only [State.takeStageOpen]
  repeat' split
  all_goals (with_reducible repeat first
    | exact hk | apply State.stageOpenTag_keeps | apply State.refuse_keeps)

theorem State.takeStageErase_keeps {s₀ s : State} (hk : Keeps s₀ s) (p : PortId) (window : Byte) (sector : BitVec 16) :
    Keeps s₀ (s.takeStageErase p window sector) := by
  simp only [State.takeStageErase]
  repeat' split
  all_goals (with_reducible repeat first
    | exact hk | apply State.refuseOutside_keeps | apply State.execute_keeps | apply State.refuse_keeps
    | apply State.request_keeps)

theorem State.noteWrite_keeps {s₀ s : State} (hk : Keeps s₀ s) (w : StagingId) (offset : Nat) :
    Keeps s₀ (s.noteWrite w offset) := by
  simp only [State.noteWrite]
  repeat' split
  all_goals (with_reducible repeat first
    | exact hk | apply State.modStaging_keeps | apply State.postFormatter_keeps)

theorem State.takeStageWrite_keeps {s₀ s : State} (hk : Keeps s₀ s) (p : PortId) (window : Byte) (offset : BitVec 32) (data : List Byte) :
    Keeps s₀ (s.takeStageWrite p window offset data) := by
  simp only [State.takeStageWrite]
  repeat' split
  all_goals (with_reducible repeat first
    | exact hk | apply State.noteWrite_keeps | apply State.refuseOutside_keeps | apply State.execute_keeps
    | apply State.refuse_keeps | apply State.request_keeps)

theorem State.takeSeal_keeps {s₀ s : State} (hk : Keeps s₀ s) (p : PortId) (window : Byte) :
    Keeps s₀ (s.takeSeal p window) := by
  simp only [State.takeSeal]
  repeat' split
  all_goals (with_reducible repeat first
    | exact hk | apply State.modStaging_keeps | apply State.refuse_keeps | apply State.done_keeps
    | apply State.takeSealRequest_keeps | refine Keeps.withMu ?_ _)

theorem State.closeWindow_keeps {s₀ s : State} (hk : Keeps s₀ s) (w : StagingId) :
    Keeps s₀ (s.closeWindow w) := by
  simp only [State.closeWindow]
  repeat' split
  all_goals (with_reducible repeat first
    | exact hk | apply State.modStaging_keeps | apply State.cancelSeal_keeps | apply State.settle_keeps)

theorem State.takeStageClose_keeps {s₀ s : State} (hk : Keeps s₀ s) (p : PortId) (window : Byte) :
    Keeps s₀ (s.takeStageClose p window) := by
  simp only [State.takeStageClose]
  repeat' split
  all_goals (with_reducible repeat first
    | exact hk | apply State.closeWindow_keeps | apply State.refuse_keeps | apply State.done_keeps)

/-! ## Frames.lean -/

theorem State.takeRead_keeps {s₀ s : State} (hk : Keeps s₀ s) (p : PortId) (offset : BitVec 24) (length : BitVec 16) :
    Keeps s₀ (s.takeRead p offset length) := by
  simp only [State.takeRead]
  (with_reducible repeat first
    | exact hk | apply State.serveList_keeps | apply State.classify_keeps | apply State.evalPermit_keeps
    | refine State.modPort_keeps ?_ _ _ (fun u => ⟨id, rfl, by simp, rfl⟩))

theorem State.takeSetExt_keeps {s₀ s : State} (hk : Keeps s₀ s) (p : PortId) (value : Byte) :
    Keeps s₀ (s.takeSetExt p value) := by
  simp only [State.takeSetExt]
  repeat' split
  all_goals (with_reducible repeat first
    | exact hk | apply State.refuse_keeps | apply State.done_keeps
    | refine State.modPort_keeps ?_ _ _ (fun u => ⟨id, rfl, by simp, rfl⟩))

theorem State.takeStatus_keeps {s₀ s : State} (hk : Keeps s₀ s) (p : PortId) :
    Keeps s₀ (s.takeStatus p) := by
  simp only [State.takeStatus]
  (with_reducible repeat first
    | exact hk | apply State.done_keeps)

theorem State.takeNoticeRead_keeps {s₀ s : State} (h : Keeps s₀ s) (p : PortId) : Keeps s₀ (s.takeNoticeRead p) := by
  unfold State.takeNoticeRead
  refine State.done_keeps (State.modPort_keeps h _ _ ?_) _ _
  intro u
  exact ⟨fun _ => by simp, rfl, id, rfl⟩

theorem State.takeViolationRead_keeps {s₀ s : State} (hk : Keeps s₀ s) (p : PortId) :
    Keeps s₀ (s.takeViolationRead p) := by
  simp only [State.takeViolationRead]
  (with_reducible repeat first
    | exact hk | apply State.done_keeps | refine State.modPort_keeps ?_ _ _ (fun u => ⟨id, rfl, by simp, rfl⟩))

theorem State.takeReport_keeps {s₀ s : State} (hk : Keeps s₀ s) (p : PortId) :
    Keeps s₀ (s.takeReport p) := by
  simp only [State.takeReport]
  (with_reducible repeat first
    | exact hk | apply State.done_keeps)

theorem State.takeBootDone_keeps {s₀ s : State} (hk : Keeps s₀ s) (p : PortId) :
    Keeps s₀ (s.takeBootDone p) := by
  simp only [State.takeBootDone]
  repeat' split
  all_goals (with_reducible repeat first
    | exact hk | apply State.modLife_keeps | apply State.refuse_keeps | apply State.done_keeps
    | apply State.evalPermit_keeps)

/-! ## FlashEvents.lean -/

theorem State.setDestination_keeps {s₀ s : State} (hk : Keeps s₀ s) (r : FillRecord) (bytes : List Byte) :
    Keeps s₀ (s.setDestination r bytes) := by
  simp only [State.setDestination]
  repeat' split
  all_goals (with_reducible repeat first
    | exact hk | apply State.modSlot_keeps | refine Keeps.withPb ?_ _)

theorem State.park_keeps {s₀ s : State} (hk : Keeps s₀ s) (c : CurrentOp) (r : FillRecord) (stream : List Byte) :
    Keeps s₀ (s.park c r stream) := by
  simp only [State.park]
  (with_reducible repeat first
    | exact hk | apply State.finishOp_keeps | apply State.requestAtHead_keeps | apply State.dropLane_keeps
    | apply State.modRecord_keeps | refine Keeps.withIu ?_ _)

theorem State.passBoundary_keeps {s₀ s : State} (hk : Keeps s₀ s) (c : CurrentOp) :
    Keeps s₀ (s.passBoundary c) := by
  simp only [State.passBoundary]
  (with_reducible repeat first
    | exact hk | refine Keeps.withFc ?_ _ _ _)

theorem State.boundary_keeps {s₀ s : State} (hk : Keeps s₀ s) (bytes : List Byte) :
    Keeps s₀ (s.boundary bytes) := by
  simp only [State.boundary]
  repeat' split
  all_goals (with_reducible repeat first
    | exact hk | apply State.passBoundary_keeps | apply State.park_keeps | apply State.setDestination_keeps
    | refine Keeps.withIu ?_ _)

theorem State.startReset_keeps {s₀ s : State} (hk : Keeps s₀ s) (after : AfterReset) :
    Keeps s₀ (s.startReset after) := by
  simp only [State.startReset]
  (with_reducible repeat first
    | exact hk | refine Keeps.withFc ?_ _ _ _)

theorem State.readTimesOut_keeps {s₀ s : State} (hk : Keeps s₀ s) (bytes : List Byte) :
    Keeps s₀ (s.readTimesOut bytes) := by
  simp only [State.readTimesOut]
  repeat' split
  all_goals (with_reducible repeat first
    | exact hk | apply State.startReset_keeps | apply State.rawDelivers_keeps)

theorem State.programTimesOut_keeps {s₀ s : State} (hk : Keeps s₀ s) :
    Keeps s₀ (s.programTimesOut) := by
  simp only [State.programTimesOut]
  repeat' split
  all_goals (with_reducible repeat first
    | exact hk | apply State.startReset_keeps)

theorem State.eraseTimesOut_keeps {s₀ s : State} (hk : Keeps s₀ s) :
    Keeps s₀ (s.eraseTimesOut) := by
  simp only [State.eraseTimesOut]
  repeat' split
  all_goals (with_reducible repeat first
    | exact hk | apply State.startReset_keeps)

theorem State.suspendTimesOut_keeps {s₀ s : State} (hk : Keeps s₀ s) :
    Keeps s₀ (s.suspendTimesOut) := by
  simp only [State.suspendTimesOut]
  repeat' split
  all_goals (with_reducible repeat first
    | exact hk | apply State.startReset_keeps)

theorem State.deliverFault_keeps {s₀ s : State} (hk : Keeps s₀ s) (c : CurrentOp) :
    Keeps s₀ (s.deliverFault c) := by
  simp only [State.deliverFault]
  repeat' split
  all_goals (with_reducible repeat first
    | exact hk | apply State.sealRejected_keeps | apply State.directoryDone_keeps | apply State.probeEnded_keeps
    | apply State.candidateFails_keeps | apply State.releaseBuffer_keeps | apply State.groupFaulted_keeps
    | apply State.endFault_keeps | apply State.setServe_keeps | apply State.dropLane_keeps)

theorem State.dropReady_keeps {s₀ s : State} (hk : Keeps s₀ s) (c : CurrentOp) :
    Keeps s₀ (s.dropReady c) := by
  simp only [State.dropReady]
  repeat' split
  all_goals (with_reducible repeat first
    | exact hk | apply State.setServe_keeps)

theorem State.rewindLane_keeps {s₀ s : State} (hk : Keeps s₀ s) :
    Keeps s₀ (s.rewindLane) := by
  simp only [State.rewindLane]
  (with_reducible repeat first
    | exact hk | refine Keeps.withIu ?_ _)

theorem State.retryRead_keeps {s₀ s : State} (h : Keeps s₀ s) (c : CurrentOp) : Keeps s₀ (s.retryRead c) :=
  (State.rewindLane_keeps (State.dropReady_keeps h c)).trans
    (by
      have hd : ((s.dropReady c).rewindLane).fc = s.fc := by
        simp only [State.rewindLane, State.dropReady]
        repeat' split
        all_goals rfl
      refine { Keeps.refl (s.dropReady c).rewindLane with timeout := ?_, step_le := ?_, step_top := ?_ }
      · simp [State.retryRead, hd]
      · simp [State.retryRead, hd]
      · simp [State.retryRead, hd])

/-! ## LifeEvents.lean -/

theorem State.certSigcheckEnds_keeps {s₀ s : State} (hk : Keeps s₀ s) :
    Keeps s₀ (s.certSigcheckEnds) := by
  simp only [State.certSigcheckEnds]
  repeat' split
  all_goals (with_reducible repeat first
    | exact hk | apply State.jobEnds_keeps | apply State.settle_keeps | refine Keeps.withKe ?_ _)

theorem State.manifestSigcheckEnds_keeps {s₀ s : State} (hk : Keeps s₀ s) :
    Keeps s₀ (s.manifestSigcheckEnds) := by
  simp only [State.manifestSigcheckEnds]
  repeat' split
  all_goals (with_reducible repeat first
    | exact hk | apply State.jobEnds_keeps | apply State.settle_keeps)

theorem State.rowAnswered_keeps {s₀ s : State} (hk : Keeps s₀ s) (w : RowWrite) (fields : List Byte) :
    Keeps s₀ (s.rowAnswered w fields) := by
  simp only [State.rowAnswered]
  repeat' split
  all_goals (with_reducible repeat first
    | exact hk | apply State.commandEnds_keeps)

theorem State.discardStaging_keeps {s₀ s : State} (hk : Keeps s₀ s) (w : StagingId) :
    Keeps s₀ (s.discardStaging w) := by
  simp only [State.discardStaging]
  repeat' split
  all_goals (with_reducible repeat first
    | exact hk | apply State.modStaging_keeps | apply State.cancelSeal_keeps | apply State.postFormatter_keeps)

theorem State.cancelWindow_keeps {s₀ s : State} (h : Keeps s₀ s) (t : Tag) : Keeps s₀ (s.cancelWindow t) := by
  refine Keeps.foldl _ _ (fun s n hs => ?_)
    (Keeps.withPb (Keeps.foldl _ _ (fun _ r hs => State.cancelRecord_keeps hs r.win r.page) h) _)
  split
  · exact State.discardSlot_keeps hs _
  · exact hs

theorem State.rebuild_keeps {s₀ s : State} (hk : Keeps s₀ s) (t : Tag) :
    Keeps s₀ (s.rebuild t) := by
  simp only [State.rebuild]
  repeat' split
  all_goals (with_reducible repeat first
    | exact hk | apply State.modImage_keeps | apply State.dropEntries_keeps | apply State.evalPermit_keeps
    | apply State.clearRange_keeps)

theorem State.holdPort_keeps {s₀ s : State} (hk : Keeps s₀ s) (p : PortId) :
    Keeps s₀ (s.holdPort p) := by
  simp only [State.holdPort]
  (with_reducible repeat first
    | exact hk | apply State.modLife_keeps | apply State.endFrame_keeps | apply State.evalPermit_keeps
    | apply State.postBoth_keeps)

theorem State.finishFallback_keeps {s₀ s : State} (h : Keeps s₀ s) (p : PortId) (t : Tag) :
    Keeps s₀ (s.finishFallback p t) := by
  have h1 := State.rebuild_keeps h t
  by_cases hc : (s.image t).state = .accepted
  · have e : s.finishFallback p t = State.walk { (s.rebuild t) with
        mu := { (s.rebuild t).mu with tagQueue := (s.rebuild t).mu.tagQueue ++ [(t, .recheck)] } } := by
      rw [State.finishFallback, if_pos hc]
    rw [e]
    exact State.walk_keeps (h1.withMu _)
  · rw [State.finishFallback, if_neg hc]
    split
    · exact State.faultPort_keeps h p
    · exact h

theorem State.fallback_keeps {s₀ s : State} (h : Keeps s₀ s) (p : PortId) (t : Tag) : Keeps s₀ (s.fallback p t) := by
  have h1 : Keeps s₀ { s with lc := { s.lc with fallbackUsed := s.lc.fallbackUsed.set t true } } := h.withLc _ _
  unfold State.fallback
  exact State.finishFallback_keeps (State.cancelWindow_keeps
    (Keeps.foldl _ _ (fun _ w hs => State.discardStaging_keeps hs w) (State.holdPort_keeps h1 p)) t) p t

theorem State.deadlineFallback_keeps {s₀ s : State} (hk : Keeps s₀ s) (p : PortId) :
    Keeps s₀ (s.deadlineFallback p) := by
  simp only [State.deadlineFallback]
  repeat' split
  all_goals (with_reducible repeat first
    | exact hk | apply State.fallback_keeps | apply State.faultPort_keeps | apply State.postBoth_keeps)

end Sys2Proof.Machine
end

