-- ==== Sys2Proof/Laws/Operands.lean ====
section
/-! SUPPORT. Lemmas of the operand forms: byte order, record slices and frames. -/

namespace Sys2Proof.Machine

@[simp] theorem leBytes_length (n v : Nat) : (leBytes n v).length = n := by
  induction n generalizing v with
  | zero => rfl
  | succ n ih => simp [leBytes, ih]

/-- The bytes of a number spell it back, up to the width they have. -/
theorem leNat_leBytes (n v : Nat) : leNat (leBytes n v) = v % 256 ^ n := by
  induction n generalizing v with
  | zero => simp [leBytes, leNat, Nat.mod_one]
  | succ n ih =>
    have h : (256 : Nat) ^ (n + 1) = 256 * 256 ^ n := by rw [Nat.pow_succ, Nat.mul_comm]
    rw [h, Nat.mod_mul]
    simp only [leBytes, leNat, ih, BitVec.toNat_ofNat]

theorem leNat_lt (l : List Byte) : leNat l < 256 ^ l.length := by
  induction l with
  | nil => simp [leNat]
  | cons b rest ih =>
    have hb : b.toNat < 256 := b.isLt
    simp only [leNat, List.length_cons, Nat.pow_succ]
    omega

/-- A slice that starts behind a prefix is the slice of what follows it. -/
theorem slice_append_right (a b : List Byte) (n : Nat) : slice (a ++ b) a.length n = b.take n := by
  simp [slice]

@[simp] theorem slice_zero (l : List Byte) (n : Nat) : slice l 0 n = l.take n := by simp [slice]

/-- ARG LENGTH counts the argument bytes of a frame, behind three header bytes (1.5). -/
@[simp] theorem Request.bytes_length (r : Request) : r.bytes.length = 3 + r.args.length := by
  simp only [Request.bytes, List.length_cons, List.length_append, leBytes_length]
  omega

/-- The keys of a PROVISION, laid out one after the other, are split back into themselves (R197). -/
theorem splitKeys_flatten (keys : List Key) (h : ∀ k ∈ keys, k.length = 512) :
    splitKeys keys.length keys.flatten = keys := by
  induction keys with
  | nil => rfl
  | cons k rest ih =>
    have hk : k.length = 512 := h k (by simp)
    have hr : ∀ x ∈ rest, x.length = 512 := fun x hx => h x (by simp [hx])
    simp only [List.length_cons, splitKeys, List.flatten_cons]
    rw [List.take_left' hk, List.drop_left' hk, ih hr]

theorem flatten_keys_length (keys : List Key) (h : ∀ k ∈ keys, k.length = 512) :
    keys.flatten.length = 512 * keys.length := by
  induction keys with
  | nil => rfl
  | cons k rest ih =>
    have hk : k.length = 512 := h k (by simp)
    have hr : ∀ x ∈ rest, x.length = 512 := fun x hx => h x (by simp [hx])
    simp only [List.flatten_cons, List.length_append, hk, ih hr, List.length_cons]
    omega

/-- A byte string is the bytes of the number it spells. -/
theorem leBytes_leNat (l : List Byte) : leBytes l.length (leNat l) = l := by
  induction l with
  | nil => rfl
  | cons b rest ih =>
    have hb : b.toNat < 256 := b.isLt
    have h1 : (b.toNat + 256 * leNat rest) / 256 = leNat rest := by omega
    simp only [List.length_cons, leBytes, leNat, h1, ih]
    congr 1
    apply BitVec.eq_of_toNat_eq
    simp only [BitVec.toNat_ofNat]
    omega

/-- The bytes of a field that lies in a record are the record's slice there. -/
theorem leBytes_fieldAt (l : List Byte) (off n : Nat) (h : off + n ≤ l.length) :
    leBytes n (fieldAt l off n) = slice l off n := by
  have hn : (slice l off n).length = n := by simp [slice]; omega
  have := leBytes_leNat (slice l off n)
  rwa [hn] at this

theorem fieldAt_lt (l : List Byte) (off n : Nat) : fieldAt l off n < 256 ^ n := by
  refine Nat.lt_of_lt_of_le (leNat_lt _) (Nat.pow_le_pow_right (by decide) ?_)
  simp [slice]

/-- Keys split from bytes that hold just them are laid out as those bytes (R197). -/
theorem splitKeys_spec (n : Nat) (l : List Byte) (h : l.length = 512 * n) :
    (splitKeys n l).flatten = l ∧ (splitKeys n l).length = n ∧ ∀ k ∈ splitKeys n l, k.length = 512 := by
  induction n generalizing l with
  | zero =>
    have : l = [] := List.length_eq_zero_iff.1 (by omega)
    simp [splitKeys, this]
  | succ n ih =>
    have hd : (l.drop 512).length = 512 * n := by simp; omega
    obtain ⟨h1, h2, h3⟩ := ih _ hd
    refine ⟨?_, ?_, ?_⟩
    · simp only [splitKeys, List.flatten_cons, h1, List.take_append_drop]
    · simp [splitKeys, h2]
    · intro k hk
      simp only [splitKeys, List.mem_cons] at hk
      rcases hk with rfl | hk
      · simp; omega
      · exact h3 k hk

theorem byte_of_toNat {b : Byte} {n : Nat} (h : b.toNat = n) : b = BitVec.ofNat 8 n := by
  apply BitVec.eq_of_toNat_eq
  simp [← h]

/-- What the command table reads from a code and arguments has that code and those arguments (R12); it is well-formed unless
they spell no well-formed frame of a known command (R132, test 1). -/
theorem parseFrame_spec (code : Byte) (args : List Byte) :
    (parseFrame code args).code = code ∧ (parseFrame code args).args = args
    ∧ (parseFrame code args = .malformed code args ∨ (parseFrame code args).wellFormed = true) := by
  have one : ∀ (f : Byte → Request) (n : Nat), code.toNat = n → (∀ b, (f b).code = BitVec.ofNat 8 n) →
      (∀ b, (f b).args = [b]) → (∀ b, (f b).wellFormed = true) →
      (if args.length = 1 then f (args.getD 0 0) else Request.malformed code args).code = code
      ∧ (if args.length = 1 then f (args.getD 0 0) else Request.malformed code args).args = args
      ∧ ((if args.length = 1 then f (args.getD 0 0) else Request.malformed code args) = .malformed code args
        ∨ (if args.length = 1 then f (args.getD 0 0) else Request.malformed code args).wellFormed = true) := by
    intro f n hc h1 h2 h3
    split
    · rename_i hl
      obtain ⟨b, rfl⟩ := List.length_eq_one_iff.1 hl
      simp [h1, h2, h3, byte_of_toNat hc]
    · exact ⟨rfl, rfl, .inl rfl⟩
  have none : ∀ (r : Request) (n : Nat), code.toNat = n → r.code = BitVec.ofNat 8 n → r.args = [] →
      r.wellFormed = true →
      (if args.length = 0 then r else Request.malformed code args).code = code
      ∧ (if args.length = 0 then r else Request.malformed code args).args = args
      ∧ ((if args.length = 0 then r else Request.malformed code args) = .malformed code args
        ∨ (if args.length = 0 then r else Request.malformed code args).wellFormed = true) := by
    intro r n hc h1 h2 h3
    split
    · rename_i hl
      have : args = [] := List.length_eq_zero_iff.1 hl
      simp [h1, h2, h3, byte_of_toNat hc, this]
    · exact ⟨rfl, rfl, .inl rfl⟩
  unfold parseFrame
  simp only
  split
  case h_1 hc =>
    split
    · rename_i h
      obtain ⟨h1, h2, h3⟩ := h
      have hb := fieldAt_lt args 0 3
      have e1 : leBytes 3 (fieldAt args 0 3) = args.take 3 := by simpa using leBytes_fieldAt args 0 3 (by omega)
      have e2 : leBytes 2 (fieldAt args 3 2) = args.drop 3 := by
        rw [leBytes_fieldAt args 3 2 (by omega), slice, List.take_of_length_le (by simp; omega)]
      refine ⟨by simp [Request.code, byte_of_toNat hc], ?_, .inr ?_⟩
      · simp only [Request.args, BitVec.toNat_ofNat]
        rw [Nat.mod_eq_of_lt (by omega), Nat.mod_eq_of_lt (by omega), e1, e2, List.take_append_drop]
      · simp only [Request.wellFormed, BitVec.toNat_ofNat]
        rw [Nat.mod_eq_of_lt (by omega)]
        simp; omega
    · exact ⟨rfl, rfl, .inl rfl⟩
  case h_11 hc =>
    split
    · rename_i h1
      have hb := fieldAt_lt args 1 2
      have e2 : leBytes 2 (fieldAt args 1 2) = args.drop 1 := by
        rw [leBytes_fieldAt args 1 2 (by omega), slice, List.take_of_length_le (by simp; omega)]
      refine ⟨by simp [Request.code, byte_of_toNat hc], ?_, .inr rfl⟩
      simp only [Request.args, BitVec.toNat_ofNat]
      rw [Nat.mod_eq_of_lt (by omega), e2]
      cases args with
      | nil => simp at h1
      | cons a l => simp
    · exact ⟨rfl, rfl, .inl rfl⟩
  case h_12 hc =>
    split
    · rename_i h
      have hb := fieldAt_lt args 1 4
      have e2 : leBytes 4 (fieldAt args 1 4) = (args.drop 1).take 4 := leBytes_fieldAt args 1 4 (by omega)
      refine ⟨by simp [Request.code, byte_of_toNat hc], ?_, .inr ?_⟩
      · simp only [Request.args, BitVec.toNat_ofNat]
        rw [Nat.mod_eq_of_lt (by omega), e2]
        cases args with
        | nil => simp at h
        | cons a l =>
          simp only [List.drop_succ_cons, List.drop_zero, List.getD_cons_zero, List.take_append_drop]
      · simp [Request.wellFormed]; omega
    · exact ⟨rfl, rfl, .inl rfl⟩
  case h_16 hc =>
    split
    · rename_i h1
      have hb := fieldAt_lt args 0 4
      have e1 : leBytes 4 (fieldAt args 0 4) = args := by
        rw [leBytes_fieldAt args 0 4 (by omega), slice, List.take_of_length_le (by simp; omega), List.drop_zero]
      refine ⟨by simp [Request.code, byte_of_toNat hc], ?_, .inr rfl⟩
      simp only [Request.args, BitVec.toNat_ofNat]
      rw [Nat.mod_eq_of_lt (by omega), e1]
    · exact ⟨rfl, rfl, .inl rfl⟩
  case h_18 hc =>
    split
    · rename_i h
      obtain ⟨h1, h2, h3⟩ := h
      obtain ⟨k1, k2, k3⟩ := splitKeys_spec (args.getD 56 0).toNat (args.drop 57)
        (by rw [List.length_drop]; omega)
      refine ⟨by simp [Request.code, byte_of_toNat hc], ?_, .inr ?_⟩
      · have hg : args.getD 56 0 = args[56]'(by omega) := by simp [List.getD, List.getElem?_eq_getElem (show 56 < args.length by omega)]
        simp only [Request.args]
        rw [k1, k2, BitVec.ofNat_toNat, BitVec.setWidth_eq, hg]
        conv_rhs => rw [← List.take_append_drop 56 args, List.drop_eq_getElem_cons (show 56 < args.length by omega)]
      · simp only [Request.wellFormed, k2, List.length_take, Bool.and_eq_true, beq_iff_eq, decide_eq_true_eq,
          List.all_eq_true]
        exact ⟨⟨by omega, h1, h2⟩, k3⟩
    · exact ⟨rfl, rfl, .inl rfl⟩
  all_goals first
    | exact one _ _ (by assumption) (fun _ => rfl) (fun _ => rfl) (fun _ => rfl)
    | exact none _ _ (by assumption) rfl rfl rfl
    | exact ⟨rfl, rfl, .inl rfl⟩

end Sys2Proof.Machine
end

