-- ==== Sys2Proof/Laws/PerInstr.lean ====
section
/-! SUPPORT. The per-row family: what a well-formed row of the table hands to a port is a frame whose ARG LENGTH field can
state its length, and it passes test 1 of R132 unless the row is FRAME_REFUSED with a code and arguments that fail it. -/

namespace Sys2Proof.Laws.Delivery

open Sys2Proof.Machine

/-- A well-formed row that stands for a frame stands for one that ARG LENGTH can describe (R12), and for one that is
well-formed, but for FRAME_REFUSED. -/
def Statement (i : Instr) : Prop :=
  ∀ p r, frameOf i = some (p, r) → i.wf = true →
    r.args.length < 65536 ∧ (r.wellFormed = true ∨ ∃ code args, r = .malformed code args)

theorem powerOnReset : Statement (.powerOnReset) := by
  intro p r h
  cases h

theorem otsLoadComplete : Statement (.otsLoadComplete) := by
  intro p r h
  cases h

theorem directoryReadEnd (result : ReadEnd) : Statement (.directoryReadEnd result) := by
  intro p r h
  cases h

theorem probeReadEnd (result : ReadEnd) : Statement (.probeReadEnd result) := by
  intro p r h
  cases h

theorem manifestReadEnd (result : ReadEnd) : Statement (.manifestReadEnd result) := by
  intro p r h
  cases h

theorem certSigcheckEnd : Statement (.certSigcheckEnd) := by
  intro p r h
  cases h

theorem manifestSigcheckEnd : Statement (.manifestSigcheckEnd) := by
  intro p r h
  cases h

theorem sealManifestReadEnd (result : ReadEnd) : Statement (.sealManifestReadEnd result) := by
  intro p r h
  cases h

theorem groupReadEnd (bytes : List Byte) : Statement (.groupReadEnd bytes) := by
  intro p r h
  cases h

theorem pageReadEnd (bytes : List Byte) : Statement (.pageReadEnd bytes) := by
  intro p r h
  cases h

theorem parkBoundary (bytes : List Byte) : Statement (.parkBoundary bytes) := by
  intro p r h
  cases h

theorem rawReadEnd (bytes : List Byte) : Statement (.rawReadEnd bytes) := by
  intro p r h
  cases h

theorem eraseComplete : Statement (.eraseComplete) := by
  intro p r h
  cases h

theorem programComplete : Statement (.programComplete) := by
  intro p r h
  cases h

theorem suspendAck (finished : Bool) : Statement (.suspendAck finished) := by
  intro p r h
  cases h

theorem readTimeout (bytes : List Byte) : Statement (.readTimeout bytes) := by
  intro p r h
  cases h

theorem programTimeout : Statement (.programTimeout) := by
  intro p r h
  cases h

theorem eraseTimeout : Statement (.eraseTimeout) := by
  intro p r h
  cases h

theorem suspendTimeout : Statement (.suspendTimeout) := by
  intro p r h
  cases h

theorem resetEnd : Statement (.resetEnd) := by
  intro p r h
  cases h

theorem rowWriteComplete : Statement (.rowWriteComplete) := by
  intro p r h
  cases h

theorem holdoffExpiry (port : PortId) : Statement (.holdoffExpiry port) := by
  intro p r h
  cases h

theorem deadlineExpiry (port : PortId) : Statement (.deadlineExpiry port) := by
  intro p r h
  cases h

theorem selectRelease (port : PortId) : Statement (.selectRelease port) := by
  intro p r h
  cases h

theorem frameRefused (port : PortId) (code : Byte) (args : List Byte) : Statement (.frameRefused port code args) := by
  intro p r h hw
  cases h
  obtain ⟨-, ha, hr⟩ := parseFrame_spec code args
  exact ⟨by rw [ha]; simpa [Instr.wf] using hw, hr.symm.imp_right fun h => ⟨_, _, h⟩⟩

theorem read (port : PortId) (offset : BitVec 24) (length : BitVec 16) : Statement (.read port offset length) := by
  intro p r h hw
  cases h
  exact ⟨by simp [Request.args], .inl hw⟩

theorem setExt (port : PortId) (value : Byte) : Statement (.setExt port value) := by
  intro p r h _
  cases h
  exact ⟨by simp [Request.args], .inl rfl⟩

theorem status (port : PortId) : Statement (.status port) := by
  intro p r h _
  cases h
  exact ⟨by simp [Request.args], .inl rfl⟩

theorem noticeRead (port : PortId) : Statement (.noticeRead port) := by
  intro p r h _
  cases h
  exact ⟨by simp [Request.args], .inl rfl⟩

theorem noticeMask (port : PortId) (mask : Byte) : Statement (.noticeMask port mask) := by
  intro p r h _
  cases h
  exact ⟨by simp [Request.args], .inl rfl⟩

theorem violationRead (port : PortId) : Statement (.violationRead port) := by
  intro p r h _
  cases h
  exact ⟨by simp [Request.args], .inl rfl⟩

theorem report (port : PortId) : Statement (.report port) := by
  intro p r h _
  cases h
  exact ⟨by simp [Request.args], .inl rfl⟩

theorem bootDone (port : PortId) : Statement (.bootDone port) := by
  intro p r h _
  cases h
  exact ⟨by simp [Request.args], .inl rfl⟩

theorem reportClear (port : PortId) : Statement (.reportClear port) := by
  intro p r h _
  cases h
  exact ⟨by simp [Request.args], .inl rfl⟩

theorem stageOpen (port : PortId) (tag : Byte) : Statement (.stageOpen port tag) := by
  intro p r h _
  cases h
  exact ⟨by simp [Request.args], .inl rfl⟩

theorem stageErase (port : PortId) (window : Byte) (sector : BitVec 16) : Statement (.stageErase port window sector) := by
  intro p r h _
  cases h
  exact ⟨by simp [Request.args], .inl rfl⟩

theorem stageWrite (port : PortId) (window : Byte) (offset : BitVec 32) (data : List Byte) : Statement (.stageWrite port window offset data) := by
  intro p r h hw
  cases h
  refine ⟨?_, .inl hw⟩
  simp [Instr.wf] at hw
  simp [Request.args]
  omega

theorem sealWindow (port : PortId) (window : Byte) : Statement (.sealWindow port window) := by
  intro p r h _
  cases h
  exact ⟨by simp [Request.args], .inl rfl⟩

theorem stageClose (port : PortId) (window : Byte) : Statement (.stageClose port window) := by
  intro p r h _
  cases h
  exact ⟨by simp [Request.args], .inl rfl⟩

theorem commit (port : PortId) (tag : Byte) : Statement (.commit port tag) := by
  intro p r h _
  cases h
  exact ⟨by simp [Request.args], .inl rfl⟩

theorem revoke (port : PortId) (serial : Serial) : Statement (.revoke port serial) := by
  intro p r h _
  cases h
  exact ⟨by simp [Request.args], .inl rfl⟩

theorem retireRoot (port : PortId) (rootIndex : Byte) : Statement (.retireRoot port rootIndex) := by
  intro p r h _
  cases h
  exact ⟨by simp [Request.args], .inl rfl⟩

theorem provision (port : PortId) (config : List Byte) (keys : List Key) : Statement (.provision port config keys) := by
  intro p r h hw
  cases h
  refine ⟨?_, .inl hw⟩
  simp only [Instr.wf, Bool.and_eq_true, beq_iff_eq, decide_eq_true_eq, List.all_eq_true] at hw
  have hk := flatten_keys_length _ hw.2
  simp only [Request.args, List.length_append, List.length_cons, hk]
  omega

theorem restart (port : PortId) : Statement (.restart port) := by
  intro p r h _
  cases h
  exact ⟨by simp [Request.args], .inl rfl⟩

theorem frameByteReceived (port : PortId) (byte : Byte) : Statement (.frameByteReceived port byte) := by
  intro p r h
  cases h

theorem responseByteClockedIn (port : PortId) : Statement (.responseByteClockedIn port) := by
  intro p r h
  cases h

end Sys2Proof.Laws.Delivery
end

