-- ==== Sys2Proof/Laws/Permit.lean ====
section
/-! SUPPORT. The print permit: after an evaluation PRINT_EN equals the permit condition, and the operations that neither
end in an evaluation nor touch what the condition reads leave both as they are, one lemma per operation. -/

namespace Sys2Proof.Machine

/-- All that the permit condition reads, and PRINT_EN, are the same. -/
structure PermitSame (s t : State) : Prop where
  latch : t.pu.latch = s.pu.latch
  printEn : t.pu.printEn = s.pu.printEn
  cfg : t.cfg = s.cfg
  window : ∀ u, (t.image u).state = (s.image u).state ∧ (t.image u).good = (s.image u).good
    ∧ (t.image u).pageCount = (s.image u).pageCount ∧ (t.image u).owner = (s.image u).owner
    ∧ (t.image u).printRequired = (s.image u).printRequired
  life : ∀ p, (t.life p).state = (s.life p).state

theorem PermitSame.refl (s : State) : PermitSame s s := ⟨rfl, rfl, rfl, fun _ => ⟨rfl, rfl, rfl, rfl, rfl⟩, fun _ => rfl⟩

theorem PermitSame.trans {s t u : State} (a : PermitSame s t) (b : PermitSame t u) : PermitSame s u where
  latch := b.latch.trans a.latch
  printEn := b.printEn.trans a.printEn
  cfg := b.cfg.trans a.cfg
  window := fun x => ⟨(b.window x).1.trans (a.window x).1, (b.window x).2.1.trans (a.window x).2.1,
    (b.window x).2.2.1.trans (a.window x).2.2.1, (b.window x).2.2.2.1.trans (a.window x).2.2.2.1,
    (b.window x).2.2.2.2.trans (a.window x).2.2.2.2⟩
  life := fun p => (b.life p).trans (a.life p)

theorem PermitSame.printTagReady {s t : State} (h : PermitSame s t) (u : Tag) : t.printTagReady u = s.printTagReady u := by
  obtain ⟨h1, h2, h3, h4, -⟩ := h.window u
  simp only [State.printTagReady, h1, h2, h3, h4, h.life]

/-- What the permit condition reads decides it. -/
theorem PermitSame.permitCondition {s t : State} (h : PermitSame s t) : t.permitCondition = s.permitCondition := by
  simp only [State.permitCondition, State.printTagBound, h.latch, h.cfg, h.printTagReady, (h.window _).2.2.2.2]

/-- PRINT_EN stays equal to the permit condition. -/
theorem PermitSame.exact {s t : State} (h : PermitSame s t) (hs : s.PermitExact) : t.PermitExact := by
  unfold State.PermitExact at hs ⊢
  rw [h.printEn, h.permitCondition, hs]

/-! ## Updates of what the condition does not read -/

section
variable {s₀ s : State} (h : PermitSame s₀ s)
include h

theorem PermitSame.withFlash (x : List Host.Cell) (n : Nat) : PermitSame s₀ { s with flash := x, freeCount := n } :=
  h.trans { PermitSame.refl s with }
theorem PermitSame.withOts (x : Ots) : PermitSame s₀ { s with ots := x } := h.trans { PermitSame.refl s with }
theorem PermitSame.withFc (x : FlashCtl) : PermitSame s₀ { s with fc := x } := h.trans { PermitSame.refl s with }
theorem PermitSame.withMu (x : ManifestUnit) : PermitSame s₀ { s with mu := x } := h.trans { PermitSame.refl s with }
theorem PermitSame.withIu (x : IntegrityUnit) : PermitSame s₀ { s with iu := x } := h.trans { PermitSame.refl s with }
theorem PermitSame.withPb (x : PageBuffer) : PermitSame s₀ { s with pb := x } := h.trans { PermitSame.refl s with }
theorem PermitSame.withPorts (x : Vector PortUnit 4) : PermitSame s₀ { s with ports := x } :=
  h.trans { PermitSame.refl s with }

theorem State.modPort_permitSame (p : PortId) (f : PortUnit → PortUnit) : PermitSame s₀ (s.modPort p f) := h.withPorts _
theorem State.modSlot_permitSame (n : Fin 64) (f : BufferSlot → BufferSlot) : PermitSame s₀ (s.modSlot n f) := h.withPb _
theorem State.modStaging_permitSame (w : StagingId) (f : StagingWindow → StagingWindow) :
    PermitSame s₀ (s.modStaging w f) := h.trans { PermitSame.refl s with }

theorem State.disturb_permitSame (a n : Nat) : PermitSame s₀ (s.disturb a n) := h.withFlash _ _
theorem State.program_permitSame (a : Nat) (data : List Byte) : PermitSame s₀ (s.program a data) := h.withFlash _ _
theorem State.eraseSector_permitSame (a : Nat) : PermitSame s₀ (s.eraseSector a) := h.trans { PermitSame.refl s with }

end

theorem PermitSame.foldl {α : Type} {s₀ : State} (l : List α) (f : State → α → State)
    (hf : ∀ s a, PermitSame s₀ s → PermitSame s₀ (f s a)) {s : State} (h : PermitSame s₀ s) :
    PermitSame s₀ (l.foldl f s) := by
  induction l generalizing s with
  | nil => exact h
  | cons a rest ih => exact ih (hf s a h)

/-! ## The evaluation -/

/-- Every change of an evaluation but the level of PRINT_EN is an event posted to a port. -/
theorem State.evalPermit_spec (s : State) :
    PermitSame { s with pu := { s.pu with printEn := s.permitCondition } } s.evalPermit := by
  unfold State.evalPermit
  simp only
  split
  · next hc =>
    rw [show ({ s with pu := { s.pu with printEn := s.permitCondition } } : State) = s by rw [hc]]
    exact .refl s
  · refine PermitSame.foldl _ _ (fun s p hs => ?_) (.refl _)
    split
    · exact State.modPort_permitSame hs _ _
    · exact hs

/-- After an evaluation PRINT_EN equals the permit condition, whatever went before. -/
theorem State.evalPermit_exact (s : State) : s.evalPermit.PermitExact := by
  have h := s.evalPermit_spec
  unfold State.PermitExact
  rw [h.printEn, h.permitCondition]
  rfl

/-- After the close of a step PRINT_EN equals the permit condition. -/
theorem State.settle_exact (s : State) : s.settle.PermitExact := State.evalPermit_exact _

/-! ## Flags.lean -/

theorem State.post_permitSame {s₀ s : State} (h : PermitSame s₀ s) (p : PortId) (ev : Event) :
    PermitSame s₀ (s.post p ev) := State.modPort_permitSame h _ _

theorem State.postFormatter_permitSame {s₀ s : State} (hk : PermitSame s₀ s) (ev : Event) :
    PermitSame s₀ (s.postFormatter ev) := by
  simp only [State.postFormatter]
  repeat' split
  all_goals (with_reducible repeat first
    | exact hk | apply State.post_permitSame)

theorem State.postBoth_permitSame {s₀ s : State} (hk : PermitSame s₀ s) (p : PortId) (ev : Event) :
    PermitSame s₀ (s.postBoth p ev) := by
  simp only [State.postBoth]
  repeat' split
  all_goals (with_reducible repeat first
    | exact hk | apply State.postFormatter_permitSame | apply State.post_permitSame)

theorem State.violate_permitSame {s₀ s : State} (hk : PermitSame s₀ s) (p : PortId) (kind : ViolationKind) (detail : Nat) :
    PermitSame s₀ (s.violate p kind detail) := by
  simp only [State.violate]
  repeat' split
  all_goals (with_reducible repeat first
    | exact hk | apply State.modPort_permitSame | apply State.post_permitSame)

/-! ## Slots.lean -/

theorem State.lruLeave_permitSame {s₀ s : State} (hk : PermitSame s₀ s) (n : Fin 64) :
    PermitSame s₀ (s.lruLeave n) := by
  simp only [State.lruLeave]
  (with_reducible repeat first
    | exact hk | refine PermitSame.withPb ?_ _)

theorem State.lruJoin_permitSame {s₀ s : State} (hk : PermitSame s₀ s) (n : Fin 64) :
    PermitSame s₀ (s.lruJoin n) := by
  simp only [State.lruJoin]
  (with_reducible repeat first
    | exact hk | refine PermitSame.withPb ?_ _)

theorem State.freeSlot_permitSame {s₀ s : State} (hk : PermitSame s₀ s) (n : Fin 64) :
    PermitSame s₀ (s.freeSlot n) := by
  simp only [State.freeSlot]
  (with_reducible repeat first
    | exact hk | apply State.modSlot_permitSame | apply State.lruLeave_permitSame)

theorem State.takeSlot_permitSame {s₀ s : State} (hk : PermitSame s₀ s) (n : Fin 64) (state : BufferState) (t : Tag) (i : Nat) (data : List Byte) :
    PermitSame s₀ (s.takeSlot n state t i data) := by
  simp only [State.takeSlot]
  (with_reducible repeat first
    | exact hk | apply State.modSlot_permitSame | apply State.lruLeave_permitSame)

theorem State.pinSlot_permitSame {s₀ s : State} (hk : PermitSame s₀ s) (n : Fin 64) :
    PermitSame s₀ (s.pinSlot n) := by
  simp only [State.pinSlot]
  (with_reducible repeat first
    | exact hk | apply State.modSlot_permitSame | apply State.lruLeave_permitSame)

theorem State.unpinSlot_permitSame {s₀ s : State} (hk : PermitSame s₀ s) (n : Fin 64) :
    PermitSame s₀ (s.unpinSlot n) := by
  simp only [State.unpinSlot]
  repeat' split
  all_goals (with_reducible repeat first
    | exact hk | apply State.modSlot_permitSame | apply State.freeSlot_permitSame | apply State.lruJoin_permitSame)

theorem State.holdSlot_permitSame {s₀ s : State} (hk : PermitSame s₀ s) (n : Fin 64) (p : PortId) :
    PermitSame s₀ (s.holdSlot n p) := by
  simp only [State.holdSlot]
  (with_reducible repeat first
    | exact hk | apply State.modSlot_permitSame | apply State.lruLeave_permitSame)

theorem State.discardSlot_permitSame {s₀ s : State} (hk : PermitSame s₀ s) (n : Fin 64) :
    PermitSame s₀ (s.discardSlot n) := by
  simp only [State.discardSlot]
  repeat' split
  all_goals (with_reducible repeat first
    | exact hk | apply State.modSlot_permitSame | apply State.freeSlot_permitSame | apply State.lruLeave_permitSame)

/-! ## Flash.lean -/

theorem State.modRecord_permitSame {s₀ s : State} (hk : PermitSame s₀ s) (w : WindowKey) (i : Nat) (f : FillRecord → FillRecord) :
    PermitSame s₀ (s.modRecord w i f) := by
  simp only [State.modRecord]
  (with_reducible repeat first
    | exact hk | refine PermitSame.withPb ?_ _)

theorem State.startLane_permitSame {s₀ s : State} (hk : PermitSame s₀ s) (hash : List Byte) :
    PermitSame s₀ (s.startLane hash) := by
  simp only [State.startLane]
  (with_reducible repeat first
    | exact hk | refine PermitSame.withIu ?_ _)

theorem State.dropLane_permitSame {s₀ s : State} (hk : PermitSame s₀ s) :
    PermitSame s₀ (s.dropLane) := by
  simp only [State.dropLane]
  (with_reducible repeat first
    | exact hk | refine PermitSame.withIu ?_ _)

theorem State.prepareDestination_permitSame {s₀ s : State} (hk : PermitSame s₀ s) (r : FillRecord) :
    PermitSame s₀ (s.prepareDestination r) := by
  simp only [State.prepareDestination]
  repeat' split
  all_goals (with_reducible repeat first
    | exact hk | apply State.modRecord_permitSame | apply State.takeSlot_permitSame | refine PermitSame.withPb ?_ _)

theorem State.enterReading_permitSame {s₀ s : State} (hk : PermitSame s₀ s) (w : WindowKey) (i : Nat) :
    PermitSame s₀ (s.enterReading w i) := by
  simp only [State.enterReading]
  repeat' split
  all_goals (with_reducible repeat first
    | exact hk | apply State.prepareDestination_permitSame | apply State.startLane_permitSame
    | apply State.modRecord_permitSame | refine PermitSame.withIu ?_ _)

theorem State.startOp_permitSame {s₀ s : State} (hk : PermitSame s₀ s) (r : FlashRequest) :
    PermitSame s₀ (s.startOp r) := by
  simp only [State.startOp]
  repeat' split
  all_goals (with_reducible repeat first
    | exact hk | apply State.program_permitSame | apply State.enterReading_permitSame
    | apply State.startLane_permitSame | refine PermitSame.withFc ?_ _)

theorem State.pick_permitSame {s₀ s : State} (hk : PermitSame s₀ s) :
    PermitSame s₀ (s.pick) := by
  simp only [State.pick]
  repeat' split
  all_goals (with_reducible repeat first
    | exact hk | apply State.startOp_permitSame | refine PermitSame.withFc ?_ _)

theorem State.afterJoin_permitSame {s₀ s : State} (hk : PermitSame s₀ s) (c : OpClass) :
    PermitSame s₀ (s.afterJoin c) := by
  simp only [State.afterJoin]
  repeat' split
  all_goals (with_reducible repeat first
    | exact hk | apply State.pick_permitSame | refine PermitSame.withFc ?_ _)

theorem State.request_permitSame {s₀ s : State} (hk : PermitSame s₀ s) (r : FlashRequest) :
    PermitSame s₀ (s.request r) := by
  simp only [State.request]
  (with_reducible repeat first
    | exact hk | apply State.afterJoin_permitSame | refine PermitSame.withFc ?_ _)

theorem State.requestAtHead_permitSame {s₀ s : State} (hk : PermitSame s₀ s) (r : FlashRequest) :
    PermitSame s₀ (s.requestAtHead r) := by
  simp only [State.requestAtHead]
  (with_reducible repeat first
    | exact hk | apply State.afterJoin_permitSame | refine PermitSame.withFc ?_ _)

theorem State.withdraw_permitSame {s₀ s : State} (hk : PermitSame s₀ s) (p : Purpose) :
    PermitSame s₀ (s.withdraw p) := by
  simp only [State.withdraw]
  (with_reducible repeat first
    | exact hk | refine PermitSame.withFc ?_ _)

theorem State.loseRunning_permitSame {s₀ s : State} (hk : PermitSame s₀ s) (p : Purpose) :
    PermitSame s₀ (s.loseRunning p) := by
  simp only [State.loseRunning]
  repeat' split
  all_goals (with_reducible repeat first
    | exact hk | refine PermitSame.withFc ?_ _)

theorem State.finishOp_permitSame {s₀ s : State} (hk : PermitSame s₀ s) :
    PermitSame s₀ (s.finishOp) := by
  simp only [State.finishOp]
  (with_reducible repeat first
    | exact hk | apply State.pick_permitSame | refine PermitSame.withFc ?_ _)

theorem State.raiseClock_permitSame {s₀ s : State} (hk : PermitSame s₀ s) :
    PermitSame s₀ (s.raiseClock) := by
  simp only [State.raiseClock]
  repeat' split
  all_goals (with_reducible repeat first
    | exact hk | refine PermitSame.withFc ?_ _)

theorem State.recordFault_permitSame {s₀ s : State} (hk : PermitSame s₀ s) (k : TimeoutKind) (r : FlashRequest) :
    PermitSame s₀ (s.recordFault k r) := by
  simp only [State.recordFault]
  (with_reducible repeat first
    | exact hk | apply State.postFormatter_permitSame | refine PermitSame.withFc ?_ _)

/-! ## Fill.lean -/

theorem State.setStream_permitSame {s₀ s : State} (hk : PermitSame s₀ s) (p : PortId) (st : ReadStream) :
    PermitSame s₀ (s.setStream p st) := by
  simp only [State.setStream]
  (with_reducible repeat first
    | exact hk | apply State.modPort_permitSame)

theorem State.setServe_permitSame {s₀ s : State} (hk : PermitSame s₀ s) (p : PortId) (v : Serve) :
    PermitSame s₀ (s.setServe p v) := by
  simp only [State.setServe]
  (with_reducible repeat first
    | exact hk | apply State.modPort_permitSame)

theorem State.reportByte_permitSame {s₀ s : State} (hk : PermitSame s₀ s) (p : PortId) (st : ReadStream) (r : ReadResult) :
    PermitSame s₀ (s.reportByte p st r) := by
  simp only [State.reportByte]
  repeat' split
  all_goals (with_reducible repeat first
    | exact hk | apply State.violate_permitSame)

theorem State.answerBad_permitSame {s₀ s : State} (hk : PermitSame s₀ s) (p : PortId) :
    PermitSame s₀ (s.answerBad p) := by
  simp only [State.answerBad]
  repeat' split
  all_goals (with_reducible repeat first
    | exact hk | apply State.reportByte_permitSame | apply State.setStream_permitSame)

theorem State.rawDelivers_permitSame {s₀ s : State} (hk : PermitSame s₀ s) (bytes : List Byte) :
    PermitSame s₀ (s.rawDelivers bytes) := by
  simp only [State.rawDelivers]
  repeat' split
  all_goals (with_reducible repeat first
    | exact hk | apply State.setServe_permitSame | refine PermitSame.withFc ?_ _)

theorem State.leaveRecords_permitSame {s₀ s : State} (hk : PermitSame s₀ s) (p : PortId) :
    PermitSame s₀ (s.leaveRecords p) := by
  simp only [State.leaveRecords]
  (with_reducible repeat first
    | exact hk | refine PermitSame.withPb ?_ _)

theorem State.abandonRead_permitSame {s₀ s : State} (hk : PermitSame s₀ s) (p : PortId) :
    PermitSame s₀ (s.abandonRead p) := by
  simp only [State.abandonRead]
  repeat' split
  all_goals (with_reducible repeat first
    | exact hk | apply State.modPort_permitSame | apply State.leaveRecords_permitSame
    | apply State.loseRunning_permitSame | apply State.withdraw_permitSame | apply State.unpinSlot_permitSame)

theorem State.endFrame_permitSame {s₀ s : State} (hk : PermitSame s₀ s) (p : PortId) :
    PermitSame s₀ (s.endFrame p) := by
  simp only [State.endFrame]
  repeat' split
  all_goals (with_reducible repeat first
    | exact hk | apply State.modPort_permitSame | apply State.abandonRead_permitSame)

/-! ## Manifest.lean -/

theorem State.requestWalker_permitSame {s₀ s : State} (hk : PermitSame s₀ s) (p : Purpose) (addr len : Nat) :
    PermitSame s₀ (s.requestWalker p addr len) := by
  simp only [State.requestWalker]
  (with_reducible repeat first
    | exact hk | apply State.request_permitSame)

theorem State.modWalker_permitSame {s₀ s : State} (hk : PermitSame s₀ s) (f : Walker → Walker) :
    PermitSame s₀ (s.modWalker f) := by
  simp only [State.modWalker]
  (with_reducible repeat first
    | exact hk | refine PermitSame.withMu ?_ _)

theorem State.setHolder_permitSame {s₀ s : State} (hk : PermitSame s₀ s) (h : Holder) :
    PermitSame s₀ (s.setHolder h) := by
  simp only [State.setHolder]
  (with_reducible repeat first
    | exact hk | refine PermitSame.withMu ?_ _)

theorem State.grantBuffer_permitSame {s₀ s : State} (hk : PermitSame s₀ s) :
    PermitSame s₀ (s.grantBuffer) := by
  simp only [State.grantBuffer]
  repeat' split
  all_goals (with_reducible repeat first
    | exact hk | apply State.requestWalker_permitSame | refine PermitSame.withMu ?_ _)

theorem State.takeSealRequest_permitSame {s₀ s : State} (hk : PermitSame s₀ s) :
    PermitSame s₀ (s.takeSealRequest) := by
  simp only [State.takeSealRequest]
  repeat' split
  all_goals (with_reducible repeat first
    | exact hk | apply State.grantBuffer_permitSame | refine PermitSame.withMu ?_ _)

/-! ## Reset.lean -/

theorem State.startRow_permitSame {s₀ s : State} (hk : PermitSame s₀ s) :
    PermitSame s₀ (s.startRow) := by
  simp only [State.startRow]
  repeat' split
  all_goals (with_reducible repeat first
    | exact hk | refine PermitSame.withOts ?_ _)

theorem State.queueRows_permitSame {s₀ s : State} (hk : PermitSame s₀ s) (l : List RowWrite) :
    PermitSame s₀ (s.queueRows l) := by
  simp only [State.queueRows]
  (with_reducible repeat first
    | exact hk | apply State.startRow_permitSame | refine PermitSame.withOts ?_ _)

/-! ## Ports.lean -/

theorem State.respond_permitSame {s₀ s : State} (hk : PermitSame s₀ s) (p : PortId) (bytes : List Byte) :
    PermitSame s₀ (s.respond p bytes) := by
  simp only [State.respond]
  (with_reducible repeat first
    | exact hk | apply State.modPort_permitSame)

theorem State.done_permitSame {s₀ s : State} (hk : PermitSame s₀ s) (p : PortId) (fields : List Byte) :
    PermitSame s₀ (s.done p fields) := by
  simp only [State.done]
  (with_reducible repeat first
    | exact hk | apply State.respond_permitSame)

theorem State.refuse_permitSame {s₀ s : State} (hk : PermitSame s₀ s) (p : PortId) (c : RefusalCode) :
    PermitSame s₀ (s.refuse p c) := by
  simp only [State.refuse]
  (with_reducible repeat first
    | exact hk | apply State.respond_permitSame)

theorem State.execute_permitSame {s₀ s : State} (hk : PermitSame s₀ s) (p : PortId) (code : Byte) :
    PermitSame s₀ (s.execute p code) := by
  simp only [State.execute]
  (with_reducible repeat first
    | exact hk | apply State.modPort_permitSame)

theorem State.commandEnds_permitSame {s₀ s : State} (hk : PermitSame s₀ s) (p : PortId) (code : Byte) (bytes : List Byte) :
    PermitSame s₀ (s.commandEnds p code bytes) := by
  simp only [State.commandEnds]
  repeat' split
  all_goals (with_reducible repeat first
    | exact hk | apply State.modPort_permitSame | apply State.respond_permitSame)

theorem State.touch_permitSame {s₀ s : State} (h : PermitSame s₀ s) (st : ReadStream) : PermitSame s₀ (s.touch st) := by
  unfold State.touch
  split
  · split
    · next u _ _ =>
      refine h.trans { PermitSame.refl s with window := fun v => ?_ }
      rw [State.image_modImage]
      split <;> exact ⟨rfl, rfl, rfl, rfl, rfl⟩
    · exact h
  · exact h

theorem State.passStatus_permitSame {s₀ s : State} (hk : PermitSame s₀ s) (p : PortId) :
    PermitSame s₀ (s.passStatus p) := by
  simp only [State.passStatus]
  (with_reducible repeat first
    | exact hk | apply State.modPort_permitSame)

theorem State.rawArrives_permitSame {s₀ s : State} (hk : PermitSame s₀ s) (p : PortId) :
    PermitSame s₀ (s.rawArrives p) := by
  simp only [State.rawArrives]
  repeat' split
  all_goals (with_reducible repeat first
    | exact hk | apply State.rawDelivers_permitSame)

/-! ## Staging.lean -/

theorem State.refuseOutside_permitSame {s₀ s : State} (hk : PermitSame s₀ s) (p : PortId) (code : Byte) :
    PermitSame s₀ (s.refuseOutside p code) := by
  simp only [State.refuseOutside]
  (with_reducible repeat first
    | exact hk | apply State.refuse_permitSame | apply State.violate_permitSame)

theorem State.stageOpenTag_permitSame {s₀ s : State} (hk : PermitSame s₀ s) (p : PortId) (t : Tag) :
    PermitSame s₀ (s.stageOpenTag p t) := by
  simp only [State.stageOpenTag]
  repeat' split
  all_goals (with_reducible repeat first
    | exact hk | apply State.modStaging_permitSame | apply State.refuse_permitSame | apply State.done_permitSame)

theorem State.takeStageOpen_permitSame {s₀ s : State} (hk : PermitSame s₀ s) (p : PortId) (tag : Byte) :
    PermitSame s₀ (s.takeStageOpen p tag) := by
  simp only [State.takeStageOpen]
  repeat' split
  all_goals (with_reducible repeat first
    | exact hk | apply State.stageOpenTag_permitSame | apply State.refuse_permitSame)

theorem State.takeStageErase_permitSame {s₀ s : State} (hk : PermitSame s₀ s) (p : PortId) (window : Byte) (sector : BitVec 16) :
    PermitSame s₀ (s.takeStageErase p window sector) := by
  simp only [State.takeStageErase]
  repeat' split
  all_goals (with_reducible repeat first
    | exact hk | apply State.refuseOutside_permitSame | apply State.execute_permitSame
    | apply State.refuse_permitSame | apply State.request_permitSame)

theorem State.noteWrite_permitSame {s₀ s : State} (hk : PermitSame s₀ s) (w : StagingId) (offset : Nat) :
    PermitSame s₀ (s.noteWrite w offset) := by
  simp only [State.noteWrite]
  repeat' split
  all_goals (with_reducible repeat first
    | exact hk | apply State.modStaging_permitSame | apply State.postFormatter_permitSame)

theorem State.takeStageWrite_permitSame {s₀ s : State} (hk : PermitSame s₀ s) (p : PortId) (window : Byte) (offset : BitVec 32) (data : List Byte) :
    PermitSame s₀ (s.takeStageWrite p window offset data) := by
  simp only [State.takeStageWrite]
  repeat' split
  all_goals (with_reducible repeat first
    | exact hk | apply State.program_permitSame | apply State.noteWrite_permitSame
    | apply State.refuseOutside_permitSame | apply State.execute_permitSame | apply State.refuse_permitSame
    | apply State.request_permitSame)

theorem State.takeSeal_permitSame {s₀ s : State} (hk : PermitSame s₀ s) (p : PortId) (window : Byte) :
    PermitSame s₀ (s.takeSeal p window) := by
  simp only [State.takeSeal]
  repeat' split
  all_goals (with_reducible repeat first
    | exact hk | apply State.modStaging_permitSame | apply State.refuse_permitSame | apply State.done_permitSame
    | apply State.takeSealRequest_permitSame | refine PermitSame.withMu ?_ _)

theorem State.commitTag_permitSame {s₀ s : State} (hk : PermitSame s₀ s) (p : PortId) (t : Tag) :
    PermitSame s₀ (s.commitTag p t) := by
  simp only [State.commitTag]
  repeat' split
  all_goals (with_reducible repeat first
    | exact hk | apply State.execute_permitSame | apply State.refuse_permitSame | apply State.done_permitSame
    | apply State.queueRows_permitSame)

theorem State.takeCommit_permitSame {s₀ s : State} (hk : PermitSame s₀ s) (p : PortId) (tag : Byte) :
    PermitSame s₀ (s.takeCommit p tag) := by
  simp only [State.takeCommit]
  repeat' split
  all_goals (with_reducible repeat first
    | exact hk | apply State.commitTag_permitSame | apply State.refuse_permitSame)

/-! ## Store.lean -/

theorem State.takeRevoke_permitSame {s₀ s : State} (hk : PermitSame s₀ s) (p : PortId) (serial : Serial) :
    PermitSame s₀ (s.takeRevoke p serial) := by
  simp only [State.takeRevoke]
  repeat' split
  all_goals (with_reducible repeat first
    | exact hk | apply State.execute_permitSame | apply State.refuse_permitSame | apply State.done_permitSame
    | apply State.queueRows_permitSame)

theorem State.takeRetireRoot_permitSame {s₀ s : State} (hk : PermitSame s₀ s) (p : PortId) (rootIndex : Byte) :
    PermitSame s₀ (s.takeRetireRoot p rootIndex) := by
  simp only [State.takeRetireRoot]
  repeat' split
  all_goals (with_reducible repeat first
    | exact hk | apply State.execute_permitSame | apply State.refuse_permitSame | apply State.queueRows_permitSame)

theorem State.takeProvision_permitSame {s₀ s : State} (hk : PermitSame s₀ s) (p : PortId) (config : List Byte) (keys : List Key) :
    PermitSame s₀ (s.takeProvision p config keys) := by
  simp only [State.takeProvision]
  repeat' split
  all_goals (with_reducible repeat first
    | exact hk | apply State.execute_permitSame | apply State.refuse_permitSame | apply State.queueRows_permitSame)

/-! ## Frames.lean -/

theorem State.takeSetExt_permitSame {s₀ s : State} (hk : PermitSame s₀ s) (p : PortId) (value : Byte) :
    PermitSame s₀ (s.takeSetExt p value) := by
  simp only [State.takeSetExt]
  repeat' split
  all_goals (with_reducible repeat first
    | exact hk | apply State.modPort_permitSame | apply State.refuse_permitSame | apply State.done_permitSame)

theorem State.takeStatus_permitSame {s₀ s : State} (hk : PermitSame s₀ s) (p : PortId) :
    PermitSame s₀ (s.takeStatus p) := by
  simp only [State.takeStatus]
  (with_reducible repeat first
    | exact hk | apply State.done_permitSame)

theorem State.takeNoticeRead_permitSame {s₀ s : State} (hk : PermitSame s₀ s) (p : PortId) :
    PermitSame s₀ (s.takeNoticeRead p) := by
  simp only [State.takeNoticeRead]
  (with_reducible repeat first
    | exact hk | apply State.modPort_permitSame | apply State.done_permitSame)

theorem State.takeNoticeMask_permitSame {s₀ s : State} (hk : PermitSame s₀ s) (p : PortId) (mask : Byte) :
    PermitSame s₀ (s.takeNoticeMask p mask) := by
  simp only [State.takeNoticeMask]
  (with_reducible repeat first
    | exact hk | apply State.modPort_permitSame | apply State.done_permitSame)

theorem State.takeViolationRead_permitSame {s₀ s : State} (hk : PermitSame s₀ s) (p : PortId) :
    PermitSame s₀ (s.takeViolationRead p) := by
  simp only [State.takeViolationRead]
  (with_reducible repeat first
    | exact hk | apply State.modPort_permitSame | apply State.done_permitSame)

theorem State.takeReport_permitSame {s₀ s : State} (hk : PermitSame s₀ s) (p : PortId) :
    PermitSame s₀ (s.takeReport p) := by
  simp only [State.takeReport]
  (with_reducible repeat first
    | exact hk | apply State.done_permitSame)

theorem State.takeReportClear_permitSame {s₀ s : State} (hk : PermitSame s₀ s) (p : PortId) :
    PermitSame s₀ (s.takeReportClear p) := by
  simp only [State.takeReportClear]
  (with_reducible repeat first
    | exact hk | apply State.done_permitSame | refine PermitSame.withFc ?_ _)

/-! ## FlashEvents.lean -/

theorem State.setDestination_permitSame {s₀ s : State} (hk : PermitSame s₀ s) (r : FillRecord) (bytes : List Byte) :
    PermitSame s₀ (s.setDestination r bytes) := by
  simp only [State.setDestination]
  repeat' split
  all_goals (with_reducible repeat first
    | exact hk | apply State.modSlot_permitSame | refine PermitSame.withPb ?_ _)

theorem State.park_permitSame {s₀ s : State} (hk : PermitSame s₀ s) (c : CurrentOp) (r : FillRecord) (stream : List Byte) :
    PermitSame s₀ (s.park c r stream) := by
  simp only [State.park]
  (with_reducible repeat first
    | exact hk | apply State.finishOp_permitSame | apply State.requestAtHead_permitSame
    | apply State.dropLane_permitSame | apply State.modRecord_permitSame | refine PermitSame.withIu ?_ _)

theorem State.passBoundary_permitSame {s₀ s : State} (hk : PermitSame s₀ s) (c : CurrentOp) :
    PermitSame s₀ (s.passBoundary c) := by
  simp only [State.passBoundary]
  (with_reducible repeat first
    | exact hk | refine PermitSame.withFc ?_ _)

theorem State.boundary_permitSame {s₀ s : State} (hk : PermitSame s₀ s) (bytes : List Byte) :
    PermitSame s₀ (s.boundary bytes) := by
  simp only [State.boundary]
  repeat' split
  all_goals (with_reducible repeat first
    | exact hk | apply State.passBoundary_permitSame | apply State.park_permitSame
    | apply State.setDestination_permitSame | refine PermitSame.withIu ?_ _)

theorem State.startReset_permitSame {s₀ s : State} (hk : PermitSame s₀ s) (after : AfterReset) :
    PermitSame s₀ (s.startReset after) := by
  simp only [State.startReset]
  (with_reducible repeat first
    | exact hk | refine PermitSame.withFc ?_ _)

theorem State.readTimesOut_permitSame {s₀ s : State} (hk : PermitSame s₀ s) (bytes : List Byte) :
    PermitSame s₀ (s.readTimesOut bytes) := by
  simp only [State.readTimesOut]
  repeat' split
  all_goals (with_reducible repeat first
    | exact hk | apply State.startReset_permitSame | apply State.rawDelivers_permitSame)

theorem State.programTimesOut_permitSame {s₀ s : State} (hk : PermitSame s₀ s) :
    PermitSame s₀ (s.programTimesOut) := by
  simp only [State.programTimesOut]
  repeat' split
  all_goals (with_reducible repeat first
    | exact hk | apply State.startReset_permitSame)

theorem State.eraseTimesOut_permitSame {s₀ s : State} (hk : PermitSame s₀ s) :
    PermitSame s₀ (s.eraseTimesOut) := by
  simp only [State.eraseTimesOut]
  repeat' split
  all_goals (with_reducible repeat first
    | exact hk | apply State.startReset_permitSame)

theorem State.suspendTimesOut_permitSame {s₀ s : State} (hk : PermitSame s₀ s) :
    PermitSame s₀ (s.suspendTimesOut) := by
  simp only [State.suspendTimesOut]
  repeat' split
  all_goals (with_reducible repeat first
    | exact hk | apply State.startReset_permitSame)

theorem State.eraseFails_permitSame {s₀ s : State} (hk : PermitSame s₀ s) (r : FlashRequest) (k : TimeoutKind) :
    PermitSame s₀ (s.eraseFails r k) := by
  simp only [State.eraseFails]
  repeat' split
  all_goals (with_reducible repeat first
    | exact hk | apply State.disturb_permitSame | apply State.commandEnds_permitSame
    | apply State.recordFault_permitSame | refine PermitSame.withFc ?_ _)

theorem State.abortSuspended_permitSame {s₀ s : State} (hk : PermitSame s₀ s) :
    PermitSame s₀ (s.abortSuspended) := by
  simp only [State.abortSuspended]
  repeat' split
  all_goals (with_reducible repeat first
    | exact hk | apply State.eraseFails_permitSame)

theorem State.programFails_permitSame {s₀ s : State} (hk : PermitSame s₀ s) (r : FlashRequest) :
    PermitSame s₀ (s.programFails r) := by
  simp only [State.programFails]
  repeat' split
  all_goals (with_reducible repeat first
    | exact hk | apply State.program_permitSame | apply State.disturb_permitSame
    | apply State.commandEnds_permitSame | apply State.recordFault_permitSame)

theorem State.dropReady_permitSame {s₀ s : State} (hk : PermitSame s₀ s) (c : CurrentOp) :
    PermitSame s₀ (s.dropReady c) := by
  simp only [State.dropReady]
  repeat' split
  all_goals (with_reducible repeat first
    | exact hk | apply State.setServe_permitSame)

theorem State.rewindLane_permitSame {s₀ s : State} (hk : PermitSame s₀ s) :
    PermitSame s₀ (s.rewindLane) := by
  simp only [State.rewindLane]
  (with_reducible repeat first
    | exact hk | refine PermitSame.withIu ?_ _)

theorem State.retryRead_permitSame {s₀ s : State} (hk : PermitSame s₀ s) (c : CurrentOp) :
    PermitSame s₀ (s.retryRead c) := by
  simp only [State.retryRead]
  (with_reducible repeat first
    | exact hk | apply State.rewindLane_permitSame | apply State.dropReady_permitSame | refine PermitSame.withFc ?_ _)

/-! ## LifeEvents.lean -/

theorem State.rowAnswered_permitSame {s₀ s : State} (hk : PermitSame s₀ s) (w : RowWrite) (fields : List Byte) :
    PermitSame s₀ (s.rowAnswered w fields) := by
  simp only [State.rowAnswered]
  repeat' split
  all_goals (with_reducible repeat first
    | exact hk | apply State.commandEnds_permitSame)

end Sys2Proof.Machine
end

