-- ==== Sys2Proof/Laws/Store.lean ====
section
/-! SUPPORT. The one-time store only moves forward, and what a reset of the part does to the flash and to what it keeps. -/

namespace Sys2Proof.Machine

/-! ## The one-time store -/

theorem Ots.Forward.refl (o : Ots) : Ots.Forward o o :=
  ⟨fun _ => id, fun _ _ => id, fun _ => id, List.prefix_rfl, fun _ => List.prefix_rfl⟩

theorem Ots.Forward.trans {a b c : Ots} (h : Ots.Forward a b) (k : Ots.Forward b c) : Ots.Forward a c :=
  ⟨fun x hx => k.1 x (h.1 x hx), fun r x hx => k.2.1 r x (h.2.1 r x hx), fun r hr => k.2.2.1 r (h.2.2.1 r hr),
    h.2.2.2.1.trans k.2.2.2.1, fun t => (h.2.2.2.2 t).trans (k.2.2.2.2 t)⟩

/-- A change of the row-write queue and the running write leaves every row. -/
theorem Ots.Forward.rows {a b : Ots} (h1 : b.config = a.config) (h2 : b.rootKeys = a.rootKeys) (h3 : b.retired = a.retired)
    (h4 : b.revoked = a.revoked) (h5 : b.floors = a.floors) : Ots.Forward a b := by
  obtain ⟨c, rk, rt, rv, fl, q, rn⟩ := a
  obtain ⟨c', rk', rt', rv', fl', q', rn'⟩ := b
  subst h1 h2 h3 h4 h5
  exact ⟨fun _ => id, fun _ _ => id, fun _ => id, List.prefix_rfl, fun _ => List.prefix_rfl⟩

/-- A row write that completes blanks and changes no WRITTEN row. -/
theorem Ots.write_forward (o : Ots) (row : RowContent) : Ots.Forward o (o.write row) := by
  cases row with
  | config bytes =>
    simp only [Ots.write]
    split
    · next h => exact ⟨fun b hb => by simp [hb] at h, fun _ _ => id, fun _ => id, List.prefix_rfl, fun _ => List.prefix_rfl⟩
    · exact .refl o
  | rootKey r key =>
    simp only [Ots.write]
    split
    · next h =>
      refine ⟨fun _ => id, fun q k hk => ?_, fun _ => id, List.prefix_rfl, fun _ => List.prefix_rfl⟩
      by_cases hq : r = q
      · subst hq; rw [hk] at h; cases h
      · have hv : (r : Nat) ≠ q := fun e => hq (Fin.ext e)
        simpa [hv] using hk
    · exact .refl o
  | retire r =>
    refine ⟨fun _ => id, fun _ _ => id, fun q hq => ?_, List.prefix_rfl, fun _ => List.prefix_rfl⟩
    by_cases h : r = q
    · subst h; simp [Ots.write]
    · have hv : (r : Nat) ≠ q := fun e => h (Fin.ext e)
      simpa [Ots.write, hv] using hq
  | revocation serial =>
    simp only [Ots.write]
    split
    · exact ⟨fun _ => id, fun _ _ => id, fun _ => id, List.prefix_append _ _, fun _ => List.prefix_rfl⟩
    · exact .refl o
  | floor t v =>
    simp only [Ots.write]
    split
    · refine ⟨fun _ => id, fun _ _ => id, fun _ => id, List.prefix_rfl, fun u => ?_⟩
      by_cases h : t = u
      · subst h; simp
      · have hv : (t : Nat) ≠ u := fun e => h (Fin.ext e)
        simp [hv]
    · exact .refl o

/-! ## Resets -/

theorem State.sameFlashOutside_refl (s : State) (l : List (Nat × Nat)) : s.sameFlashOutside s l := fun _ _ => rfl

/-- The flash alone has changed, within these spans and in canonical form. -/
def State.Disturbed (s u : State) (l : List (Nat × Nat)) : Prop :=
  u = { s with flash := u.flash, freeCount := u.freeCount }
    ∧ (Memory.wf s.flash = true → Memory.wf u.flash = true) ∧ s.sameFlashOutside u l

theorem State.disturbed_refl (s : State) : s.Disturbed s [] := ⟨rfl, id, s.sameFlashOutside_refl []⟩

theorem State.disturbed_disturb {s u : State} {l : List (Nat × Nat)} (h : s.Disturbed u l) (b n : Nat) :
    s.Disturbed (u.disturb b n) (l ++ [(b, n)]) := by
  obtain ⟨hu, hw, hl⟩ := h
  refine ⟨?_, fun h => (u.disturb_spec b n).2.1 (hw h), fun x hx => ?_⟩
  · rw [(u.disturb_spec b n).1]
    generalize (u.disturb b n).flash = f
    rw [hu]
  · rw [(u.disturb_spec b n).2.2.1 x (hx (b, n) (by simp)), hl x (fun sp hsp => hx sp (by simp [hsp]))]

theorem State.disturbed_one (s : State) (b n : Nat) : s.Disturbed (s.disturb b n) [(b, n)] := by
  have h := State.disturbed_disturb s.disturbed_refl b n
  rwa [List.nil_append] at h

theorem State.abandonPort_spec (s : State) : s.Disturbed s.abandonPort s.portSpans := by
  cases hp : s.fc.port with
  | idle => simp only [State.abandonPort, State.portSpans, hp]; exact s.disturbed_refl
  | op c =>
    cases hq : c.req.purpose <;> simp only [State.abandonPort, State.portSpans, hp, hq] <;> first
      | with_reducible exact s.disturbed_refl
      | with_reducible exact s.disturbed_one _ _
  | reset a =>
    cases a <;> simp only [State.abandonPort, State.portSpans, hp] <;> first
      | with_reducible exact s.disturbed_refl
      | with_reducible exact s.disturbed_one _ _

theorem State.abandonErase_spec {s u : State} {l : List (Nat × Nat)} (h : s.Disturbed u l) :
    s.Disturbed u.abandonErase (l ++ s.eraseSpans) := by
  have he : u.fc.erase = s.fc.erase := congrArg (fun x => x.fc.erase) h.1
  unfold State.abandonErase State.eraseSpans
  rw [he]
  cases s.fc.erase with
  | none => simpa using h
  | erasing r => exact State.disturbed_disturb h _ _
  | suspending r => exact State.disturbed_disturb h _ _
  | suspended r => exact State.disturbed_disturb h _ _

/-- Abandoning the ops of the flash port changes the flash alone, and there only the spans under way. -/
theorem State.abandonOps_spec (s : State) : s.Disturbed s.abandonOps s.spansUnderWay :=
  State.abandonErase_spec s.abandonPort_spec

/-- What a reset of the blocks keeps: the flash outside the spans under way, the rows, the select inputs and the queue; and
the port states it shows until the load. -/
theorem State.resetBlocks_spec (s : State) :
    s.resetBlocks = { State.reset with
        flash := s.abandonOps.flash, freeCount := s.abandonOps.freeCount
        ots := { s.ots with queue := [], running := none }
        lc := { State.reset.lc with ports := Vector.ofFn s.ots.initialLife }
        ports := s.ports.map (fun u => { PortUnit.reset with selectActive := u.selectActive })
        pending := s.pending } := by
  unfold State.resetBlocks
  rw [s.abandonOps_spec.1]
  rfl

end Sys2Proof.Machine
end

