-- ==== Sys2Proof/Tests/Slice0.lean ====
section
/-! SUPPORT. Tests of the model on small states, from the worked examples and rules of spec/, and a witness for the
hypotheses of every statement of Certificates/Slice0/Obligations.lean. -/

namespace Sys2Proof.Tests

open Sys2Proof.Machine

/-! ## States -/

/-- A config record (Table 1-6): formatter on port 0, engine on port 1 with action FALLBACK, panel on port 2 with NOTICE,
scanfax on port 3 with SYSTEM; tag t bound to port t as its BOOT tag; tag 1 print-required; H 8, D_MIN 0, D_MAX 3,
1024 sectors. -/
def configBytes : List Byte :=
  [0, 0, 0, 0, 1, 30, 2, 0, 2, 20, 1, 1, 3, 20, 3, 0]
    ++ [0, 1, 0, 0, 1, 3, 0, 0, 2, 1, 0, 0, 3, 1, 0, 0]
    ++ [0xFF, 0, 0, 0, 0xFF, 0, 0, 0, 0xFF, 0, 0, 0, 0xFF, 0, 0, 0]
    ++ [8, 0, 3, 0, 0, 4, 0, 0]

/-- A directory record with two VALID slots of 16 sectors. -/
def twoSlots : DirectoryRecord := { slotSize := 16, baseA := 1, baseB := 17, reasonA := .none, reasonB := .none }

/-- An ACCEPTED window of 10 pages, all GOOD, with its range at `start`. -/
def acceptedWindow (p : PortId) (print : Bool) (start : Nat) : ImageWindow :=
  { ImageWindow.unused with
    state := .accepted, owner := some p, boot := true, printRequired := print, slot := some .a, version := 5, serial := 7,
    pageCount := 10, pageBase := 77824, groupBase := 73728, range := some { start := start, length := 10 }, good := 10 }

/-- A part in use: every port CONFIRMED, the flash free, the windows of tags 0 to 3 ACCEPTED. -/
def base : State :=
  { State.reset with
    loaded := true
    cfg := some (configOfBytes configBytes)
    ots := { Ots.blank with config := some configBytes, rootKeys := #v[some [], some [], none, none] }
    fc := { FlashCtl.reset with port := .idle }
    mu := { ManifestUnit.reset with view := some (Vector.replicate 8 twoSlots) }
    wu := { State.reset.wu with
      image := #v[acceptedWindow 0 false 0, acceptedWindow 1 true 10, acceptedWindow 2 false 20, acceptedWindow 3 false 30,
                  ImageWindow.unused, ImageWindow.unused, ImageWindow.unused, ImageWindow.unused] }
    lc := { State.reset.lc with
      ports := #v[{ PortLife.reset with state := .confirmed, bootTag := some 0 },
                  { PortLife.reset with state := .confirmed, bootTag := some 1 },
                  { PortLife.reset with state := .confirmed, bootTag := some 2 },
                  { PortLife.reset with state := .confirmed, bootTag := some 3 }] } }

/-- The part in factory state. -/
def factory : State := { State.reset with loaded := true, fc := { FlashCtl.reset with port := .idle } }

/-- The state after a command. -/
def after (c : Instr) (s : State) : State :=
  match exec c s with
  | .next t => t
  | .fault _ => s
  | .refused _ => s

/-- A port unit of `base`, changed. -/
def withPort (p : PortId) (f : PortUnit → PortUnit) : State := base.modPort p f

/-- `base` with a port that has a READ in progress. -/
def reading (p : PortId) (st : ReadStream) : State :=
  withPort p (fun u => { u with frame := .responding, stream := some st })

/-- A READ of 8 bytes at logical address 0. -/
def stream (passed : Nat) (v : Serve) : ReadStream :=
  { start := 0, length := 8, passed := passed, serve := v, stopAt := 8, reportedOutside := false, reportedWithheld := false }

/-- A READ of 8 bytes from `start`, at the last byte of its page, served from slot 3. -/
def atPageEnd (start : Nat) : ReadStream :=
  { start := start, length := 8, passed := 3, serve := .slot 3, stopAt := 4, reportedOutside := false,
    reportedWithheld := false }

/-- `base` with a RAW READ of 8 bytes of port 0 that has delivered `n`, none of them waiting to be passed. -/
def rawOp (n : Nat) : CurrentOp :=
  { req := { purpose := .raw 0, addr := 65536, len := 8, cls := .demand, live := true }, delivered := n, retryUsed := false,
    step := 0 }
def rawRunning (n : Nat) : State :=
  { reading 0 (stream 0 (.raw [] false)) with fc := { base.fc with port := .op (rawOp n) } }

/-- `base` with an op on the flash port. -/
def running (r : FlashRequest) : State := { base with fc := { base.fc with port := r.started 0 } }

/-- A flash request of class WALKER. -/
def walkerRead (p : Purpose) (len : Nat) : FlashRequest := { purpose := p, addr := 65536, len := len, cls := .walker, live := true }

/-- The walker at work on tag 1 with these candidates, the windows of the other tags UNUSED. -/
def walking (s : State) (l : List SlotId) : State :=
  { (s.modImage 1 (fun w => { w with state := .checking, slot := none })) with
    mu := { s.mu with walker := { phase := .read, entry := some (1, .first), candidates := l, probeA := some 4, reRead := false },
                      holder := .walker } }

/-- A part with no window in use, where nothing but the flash port is busy. -/
def quiet (r : FlashRequest) : State :=
  { running r with wu := { (running r).wu with image := Vector.replicate 8 ImageWindow.unused } }

/-- The flash carries an ERASE of port 0 in this erase state. -/
def eraseRequest : FlashRequest := { purpose := .erase 0, addr := 1114112, len := 65536, cls := .staging, live := true }
def erasing (e : EraseState) : State :=
  { (withPort 0 (fun u => { u with frame := .executing 0x12 })) with
    fc := { base.fc with port := eraseRequest.started 0, erase := e } }

/-- The flash carries a PROGRAM of port 0. -/
def programRequest : FlashRequest :=
  { purpose := .program 0 [1, 2], addr := 1114112, len := 2, cls := .staging, live := true }
def programming : State :=
  { (withPort 0 (fun u => { u with frame := .executing 0x13 })) with fc := { base.fc with port := programRequest.started 0 } }

/-- A manifest of tag 1, slot A: format 1, BOOT SET 4, VERSION 5, PAGE COUNT 10, PAGE AREA OFFSET 3, MANIFEST LENGTH
1640, SERIAL 7, ROOT INDEX 0 (1.4). -/
def manifestBytes : List Byte :=
  [0x54, 0x46, 0x47, 0x4D, 1, 1, 0x41, 4, 5, 0, 10, 0, 0, 0, 3, 0, 0x68, 6]
    ++ List.replicate 46 0 ++ [7, 0, 0, 0, 0]

/-- An OPEN staging window of slot B of tag 1. -/
def openWindow : StagingWindow :=
  { StagingWindow.empty with state := .opened, tag := 1, slot := some .b, base := 1114112, sizePages := 256, written := true }

/-- `base` with S0 OPEN. -/
def staged : State := base.modStaging 0 (fun _ => openWindow)

/-- A store command of port 0 whose row write runs. -/
def writing (row : RowContent) (queue : List RowWrite) : State :=
  { (withPort 0 (fun u => { u with frame := .executing 0x17 })) with
    ots := { base.ots with running := some { row := row, source := some (0, 0x17) }, queue := queue } }

/-- Port 0 reads in the span of the staging windows. -/
def inStaging (s : State) : State := s.modPort 0 (fun u => { u with e := 12 })

/-- A record of page 0 of window 1 that is being read, as the sweep makes it. -/
def absentPage (cls : OpClass) : FillRecord :=
  { win := .image 1, page := 0, cls := cls, origin := none, sweepMade := true, holdFor := none, waiters := [],
    state := .reading, reRead := false, dest := .scratch, pageAddr := 77824, groupAddr := 73728 }

/-- `base` with these records, a directory READ on the flash port and a page READ of window 1 waiting at class SWEEP. -/
def needing (l : List FillRecord) : State :=
  { running (walkerRead .directory 2048) with
    pb := { base.pb with records := l }
    fc := { (running (walkerRead .directory 2048)).fc with
      queues := { base.fc.queues with
        sweep := [{ purpose := .page (.image 1) 0, addr := 77824, len := 4096, cls := .sweep, live := true }] } } }

/-! ## Well-formedness refuses what it should -/

theorem test_wf_directory_too_long (l : List Byte) (h : l.length = 2049) : (Instr.directoryReadEnd (.complete l)).wf = false := by
  simp [Instr.wf, ReadEnd.wf, h]
theorem test_wf_probe_too_long (l : List Byte) (h : l.length = 2049) : (Instr.probeReadEnd (.complete l)).wf = false := by
  simp [Instr.wf, ReadEnd.wf, h]
theorem test_wf_group_too_long (l : List Byte) (h : l.length = 2049) : (Instr.groupReadEnd l).wf = false := by
  simp [Instr.wf, h]
theorem test_wf_boundary_too_long (l : List Byte) (h : l.length = 513) : (Instr.parkBoundary l).wf = false := by
  simp [Instr.wf, h]
theorem test_wf_page_too_long (l : List Byte) (h : l.length = 4097) : (Instr.pageReadEnd l).wf = false := by
  simp [Instr.wf, h]
theorem test_wf_manifest_too_long (l : List Byte) (h : l.length = 8193) :
    (Instr.manifestReadEnd (.complete l)).wf = false ∧ (Instr.sealManifestReadEnd (.complete l)).wf = false
      ∧ (Instr.rawReadEnd l).wf = false ∧ (Instr.readTimeout l).wf = false := by
  simp [Instr.wf, ReadEnd.wf, h]
theorem test_wf_args_too_long (l : List Byte) (h : l.length = 65536) : (Instr.frameRefused 0 0 l).wf = false := by
  simp [Instr.wf, h]
theorem test_wf_read_of_nothing : (Instr.read 0 0 0).wf = false := by decide
theorem test_wf_read_too_long : (Instr.read 0 0 8193).wf = false := by decide
theorem test_wf_write_of_nothing : (Instr.stageWrite 0 0 0 []).wf = false := by decide
theorem test_wf_write_too_long (l : List Byte) (h : l.length = 257) : (Instr.stageWrite 0 0 0 l).wf = false := by
  simp [Instr.wf, h]
theorem test_wf_config_too_short : (Instr.provision 0 (List.replicate 55 0) [List.replicate 512 0]).wf = false := by decide
theorem test_wf_no_key : (Instr.provision 0 (List.replicate 56 0) []).wf = false := by decide
theorem test_wf_short_key : (Instr.provision 0 (List.replicate 56 0) [[]]).wf = false := by decide

/-! ## Frames, from the command table of 1.5 -/

theorem test_frame_setExt : requestOf [0x02, 1, 0, 0x0F] = .setExt 0x0F := by decide
theorem test_frame_read : requestOf [0x01, 5, 0, 0x10, 0x20, 0x30, 0x00, 0x20] = .read 0x302010 0x2000 := by decide
theorem test_frame_read_length_zero :
    requestOf [0x01, 5, 0, 0, 0, 0, 0, 0] = .malformed 0x01 [0, 0, 0, 0, 0] := by decide
theorem test_frame_status : requestOf [0x03, 0, 0] = .status := by decide
theorem test_frame_noticeMask : requestOf [0x05, 1, 0, 0x7E] = .noticeMask 0x7E := by decide
theorem test_frame_stageErase : requestOf [0x12, 3, 0, 1, 0x40, 0x01] = .stageErase 1 0x0140 := by decide
theorem test_frame_stageWrite :
    requestOf [0x13, 6, 0, 0, 0x00, 0x07, 0x00, 0x00, 0xAB] = .stageWrite 0 0x0700 [0xAB] := by decide
theorem test_frame_revoke : requestOf [0x17, 4, 0, 0x40, 0x2C, 0x01, 0x00] = .revoke 0x00012C40 := by decide
theorem test_frame_restart : requestOf [0x1A, 0, 0] = .restart := by decide
theorem test_frame_unknown : requestOf [0x09, 0, 0] = .malformed 0x09 [] := by decide
theorem test_frame_incomplete : frameComplete [0x02, 1, 0] = false := by decide

/-! ## Small facts of the spec's examples -/

theorem test_config_valid : configValid configBytes = true := by decide
theorem test_config_two_formatters : configValid (configBytes.set 4 0) = false := by decide
theorem test_filter_index : filterIndex 0x00012C40 = 45 ∧ filterIndex 0x00002D00 = 45 := by decide
theorem test_groups_of_710 : groupsOf 710 = 12 ∧ manifestLength 710 = 1992 := by decide
theorem test_manifest_accepted_form :
    (manifestOfBytes manifestBytes).structural 16 = .none ∧ (manifestOfBytes manifestBytes).version = 5 := by decide
theorem test_erased_manifest_is_no_format : (manifestOfBytes (List.replicate 70 0xFF)).structural 16 = .format := by decide
theorem test_program_clears_only : Memory.programByte 0xF0 0x3C 0x00 = 0x30 := by decide
theorem test_memory_write_read : Memory.read (Memory.write [] 5 [1, 0xFF, 3]) 7 = 3
    ∧ Memory.write [] 5 [1, 0xFF, 3] = [(5, 1), (7, 3)] := by decide
theorem test_memory_erase : Memory.eraseSector [(5, 1), (65536, 2)] 0 = [(65536, 2)] := by decide

/-! ## One step each -/

theorem test_setExt : ((after (.setExt 1 5) base).port 1).e = 5 := by decide
theorem test_setExt_range : ((after (.setExt 1 16) base).port 1).response = [1, 4, 0, 0] := by decide
theorem test_read_carries_e : ((after (.read 1 0xFFFFFF 2) base).port 1).e = 1 := by decide
theorem test_notice_read : ((after (.noticeRead 1) (base.post 1 .verdict)).port 1).response = [0, 0, 2, 0, 2, 0x7F] := by decide
theorem test_mask_bit_7_ignored : ((after (.noticeMask 1 0xFF) base).port 1).mask = 0x7F := by decide
theorem test_urgent_raises_notice : (base.post 1 .violation).notice 1 = true := by decide
theorem test_ordinary_waits : (base.post 1 .verdict).notice 1 = false
    ∧ ((base.post 1 .verdict).port 1).holdoff = some 2000 := by decide
theorem test_formatter_only : ((after (.restart 2) base).port 2).response = [1, 2, 0, 0]
    ∧ ((after (.restart 2) base).port 2).violation.detail = 0x1A := by decide
theorem test_restart_cause : (after (.restart 0) base).lc.cause = .command ∧ (after (.restart 0) base).loaded = false := by
  decide
theorem test_stage_open : ((after (.stageOpen 0 1) base).port 0).response = [0, 0, 2, 0, 0, 2]
    ∧ ((after (.stageOpen 0 1) base).staging 0).base = 17 * 65536 := by decide
theorem test_stage_write_warns : ((after (.stageWrite 0 0 983040 [1]) staged).port 0).events = 0x10 := by decide
theorem test_stage_write_crosses : ((after (.stageWrite 0 0 255 [1, 2]) staged).port 0).response = [1, 4, 0, 0] := by decide
theorem test_erase_starts : (after (.stageErase 0 0 1) staged).fc.erase
    = .erasing { purpose := .erase 0, addr := 1179648, len := 65536, cls := .staging, live := true } := by decide
theorem test_commit_queues_row : (after (.commit 0 1) base).ots.running
    = some { row := .floor 1 5, source := some (0, 0x16) } := by decide
theorem test_revoke_guard : ((after (.revoke 0 7) base).port 0).response = [1, 6, 0, 0] := by decide
theorem test_retire_root_last : ((after (.retireRoot 0 3) base).port 0).response = [1, 3, 0, 0] := by decide
theorem test_row_written : (after .rowWriteComplete (writing (.revocation 9) [])).ots.revoked = [9] := by decide
theorem test_factory_load : (after .otsLoadComplete State.reset).hold 0 = false
    ∧ (after .otsLoadComplete State.reset).hold 1 = true := by decide
theorem test_deadline_system : (after (.deadlineExpiry 3) (base.modLife 3 (fun l =>
    { l with state := .running, deadline := some 2000 }))).lc.causePort = some 3 := by decide
theorem test_select_release_background :
    ((after (.selectRelease 0) (erasing (.erasing eraseRequest))).port 0).background = some 0x12 := by decide
theorem test_read_times_out : (after (.readTimeout []) (running (walkerRead .directory 2048))).fc.port
    = .reset (.retryRead { req := walkerRead .directory 2048, delivered := 0, retryUsed := true, step := 0 }) := by decide
theorem test_suspend_resumes : (after (.suspendAck false) (erasing (.suspending eraseRequest))).fc.erase
    = .erasing eraseRequest := by decide

/-! ## Witnesses: a state and operands that meet all hypotheses of a statement, clause by clause -/

/-- The invariants hold together in a state whose next step answers a next state. -/
theorem witness_invariants :
    ({ base with pending := [.status 1] }).FlashCanonical ∧ ({ base with pending := [.status 1] }).MapCanonical
      ∧ ({ factory with pending := [.status 0] }).PermitExact ∧ ({ base with pending := [.status 1] }).EventBitsClear
      ∧ ({ base with pending := [.status 1] }).ClockInRange
      ∧ (∃ t, step { base with pending := [.status 1] } = .next t)
      ∧ (∃ t, step { factory with pending := [.status 0] } = .next t) :=
  ⟨rfl, rfl, by unfold State.PermitExact; decide, by unfold State.EventBitsClear; decide,
    ⟨by decide, by decide, fun c h => by cases h; decide⟩, ⟨_, rfl⟩, ⟨_, rfl⟩⟩

/-- StepKeepsPermitExact, a change of PRINT_EN: it rises as port 1 confirms, the other ports CONFIRMED before and after. -/
theorem witness_StepKeepsPermitExact_change :
    (base.modLife 1 (fun l => { l with state := .running })).noneDeferred = true
      ∧ (base.modLife 1 (fun l => { l with state := .running })).pu.printEn = false
      ∧ (after (.bootDone 1) (base.modLife 1 (fun l => { l with state := .running }))).loaded = true
      ∧ (after (.bootDone 1) (base.modLife 1 (fun l => { l with state := .running }))).pu.printEn = true
      ∧ ((after (.bootDone 1) (base.modLife 1 (fun l => { l with state := .running }))).life 2).state = .confirmed
      ∧ ((base.modLife 1 (fun l => { l with state := .running })).life 1).state = .running := by decide

/-- `s` with page 0 of window 1 in slot 3, VALID, with these pins. -/
def holding (s : State) (pins : Nat) (held : Option PortId) (discard : Bool) : State :=
  { s with pb := { s.pb with
      slots := s.pb.slots.set 3
        { state := .valid, key := some (1, 0), data := [5, 6], pins := pins, heldFor := held, discardPending := discard }
      lru := if pins = 0 ∧ held = none then [3] else [] } }

/-- StepKeepsLruExact, with a slot in the list, with a pinned one and with a held one. -/
theorem witness_StepKeepsLruExact :
    (holding base 0 none false).LruExact ∧ (holding base 1 none true).LruExact ∧ (holding base 0 (some 1) false).LruExact
      ∧ (∃ t, step { holding base 0 none false with pending := [.status 1] } = .next t) := by
  refine ⟨?_, ?_, ?_, ⟨_, rfl⟩⟩ <;> unfold State.LruExact <;> decide

/-- ClockRatchetKept, for a load after a power-on reset and for another step. -/
theorem witness_ClockRatchetKept :
    (∃ t, exec .otsLoadComplete State.reset = .next t) ∧ (State.reset.loaded = true ∨ State.reset.lc.cause ≠ .powerOn
      ∨ State.reset.fc.step = 0) ∧ (∃ t, exec (.status 1) base = .next t) ∧ (Instr.status 1) ≠ .powerOnReset
      ∧ (Instr.status 1) ≠ .otsLoadComplete :=
  ⟨⟨_, rfl⟩, by decide, ⟨_, rfl⟩, by decide, by decide⟩

/-- StoresChangeByTheirOpsAlone, both clauses. -/
theorem witness_StoresChangeByTheirOpsAlone :
    (∃ t, exec (.selectRelease 1) base = .next t ∧ t.loaded = true) ∧ (Instr.selectRelease 1) ≠ .programComplete
      ∧ (Instr.selectRelease 1) ≠ .eraseComplete ∧ (Instr.selectRelease 1) ≠ .suspendAck true
      ∧ (Instr.selectRelease 1) ≠ .resetEnd ∧ (Instr.selectRelease 1) ≠ .directoryReadEnd .fault
      ∧ (Instr.selectRelease 1) ≠ .probeReadEnd .fault ∧ (Instr.selectRelease 1) ≠ .manifestReadEnd .fault
      ∧ (Instr.selectRelease 1) ≠ .sealManifestReadEnd .fault ∧ (Instr.selectRelease 1) ≠ .rowWriteComplete :=
  ⟨⟨_, rfl, rfl⟩, by decide, by decide, by decide, by decide, by decide, by decide, by decide, by decide, by decide⟩

/-- LatchStaysUntilReset. -/
theorem witness_LatchStaysUntilReset :
    (∃ t, step { base with pu := { latch := true, printEn := false }, pending := [.restart 0] } = .next t)
      ∧ ({ base with pu := { latch := true, printEn := false } } : State).pu.latch = true :=
  ⟨⟨_, rfl⟩, rfl⟩

theorem witness_FrameBytesSpellFrame :
    (Request.stageWrite 1 0xFFFFFFFF [0]).wellFormed = true := by decide

theorem witness_FrameBytesSpellFrame_bytes :
    frameOf (.setExt 1 5) = some (1, .setExt 5) ∧ requestOf (Request.setExt 5).bytes = .setExt 5
      ∧ (Request.setExt 5).args.length < 65536 ∧ base.answers 1 = true ∧ (base.port 1).ignoring = false
      ∧ (base.port 1).frame = .idle ∧ (base.port 1).frameBytes = [] := by decide

/-- FrameTestsOfTake: no well-formed request has code 0x09. -/
theorem witness_FrameTestsOfTake_malformed :
    base.ready 1 = true
      ∧ (∀ r : Request, r.wellFormed = true → r.code = (0x09 : Byte) → r.args ≠ []) :=
  ⟨by decide, fun r hw hc => by cases r <;> first | exact absurd hw Bool.false_ne_true | exact absurd hc (by simp [Request.code])⟩

theorem witness_FrameTestsOfTake_formatterOnly :
    frameOf (.restart 2) = some (2, .restart) ∧ Request.restart.wellFormed = true ∧ Request.restart.formatterOnly = true
      ∧ base.ready 2 = true ∧ base.formatterPort ≠ some 2 := by decide

theorem witness_FrameTestsOfTake_factory :
    frameOf (.bootDone 0) = some (0, .bootDone) ∧ Request.bootDone.wellFormed = true ∧ factory.ready 0 = true
      ∧ factory.factory = true ∧ factory.formatterPort = some 0
      ∧ (∀ (offset : BitVec 24) (length : BitVec 16) (mask : Byte) (config : List Byte) (keys : List Key),
          Request.bootDone ≠ .read offset length ∧ Request.bootDone ≠ .status ∧ Request.bootDone ≠ .report
            ∧ Request.bootDone ≠ .noticeRead ∧ Request.bootDone ≠ .noticeMask mask
            ∧ Request.bootDone ≠ .provision config keys) := 
  ⟨rfl, rfl, by decide, by decide, by decide, fun _ _ _ _ _ =>
    ⟨nofun, nofun, nofun, nofun, nofun, nofun⟩⟩

theorem witness_FrameByteCollected_silent :
    State.reset.answers 1 = false := by decide

theorem witness_FrameByteCollected_receiving :
    base.answers 1 = true ∧ (base.port 1).ignoring = false ∧ (base.port 1).frame = .idle
      ∧ frameComplete ((base.port 1).frameBytes ++ [0x03]) = false := by decide

theorem witness_FrameByteCollected_deferred :
    (withPort 1 (fun u => { u with frame := .receiving, frameBytes := [3, 0], background := some 0x12 })).answers 1 = true
      ∧ ((withPort 1 (fun u => { u with frame := .receiving, frameBytes := [3, 0], background := some 0x12 })).port 1).ignoring = false
      ∧ ((withPort 1 (fun u => { u with frame := .receiving, frameBytes := [3, 0], background := some 0x12 })).port 1).frame = .receiving
      ∧ frameComplete ([3, 0] ++ [0]) = true
      ∧ ((withPort 1 (fun u => { u with frame := .receiving, frameBytes := [3, 0], background := some 0x12 })).port 1).background.isSome = true := by decide

theorem witness_SelectReleaseEndsFrame :
    (base.port 1).frame = .idle
      ∧ ((withPort 1 (fun u => { u with frame := .receiving })).port 1).frame = .receiving
      ∧ ((withPort 1 (fun u => { u with frame := .deferred })).port 1).frame = .deferred
      ∧ ((erasing (.erasing eraseRequest)).port 0).frame = .executing 0x12
      ∧ ((after (.status 1) base).port 1).frame = .responding ∧ ((after (.status 1) base).port 1).stream = none
      ∧ ((reading 1 (stream 0 (.slot 3))).port 1).frame = .responding
      ∧ ((reading 1 (stream 0 (.slot 3))).port 1).stream = some (stream 0 (.slot 3)) := by decide

theorem witness_ResponseBytePassed :
    State.reset.answers 1 = false
      ∧ (after (.status 1) base).answers 1 = true ∧ ((after (.status 1) base).port 1).frame = .responding
      ∧ ((after (.status 1) base).port 1).stream = none ∧ ((after (.setExt 1 5) base).port 1).response = 0 :: [0, 0, 0]
      ∧ (withPort 1 (fun u => { u with frame := .responding })).answers 1 = true
      ∧ ((withPort 1 (fun u => { u with frame := .responding })).port 1).frame = .responding
      ∧ ((withPort 1 (fun u => { u with frame := .responding })).port 1).stream = none
      ∧ ((withPort 1 (fun u => { u with frame := .responding })).port 1).response = [] := by decide

theorem witness_ReadBytePassed_slot :
    (reading 1 (stream 0 (.slot 3))).answers 1 = true ∧ ((reading 1 (stream 0 (.slot 3))).port 1).frame = .responding
      ∧ ((reading 1 (stream 0 (.slot 3))).port 1).stream = some (stream 0 (.slot 3))
      ∧ (stream 0 (.slot 3)).passed < (stream 0 (.slot 3)).length ∧ (stream 0 (.slot 3)).passed + 1 ≠ (stream 0 (.slot 3)).stopAt
      ∧ (({ (reading 1 (stream 0 (.slot 3))) with pb := { base.pb with slots := updAt base.pb.slots 3 (fun b => { b with state := .valid, key := some (1, 0) }) } } : State).bufferSlot 3).key = some (1, 0) := by decide

theorem witness_ReadBytePassed_withheld :
    (reading 1 (stream 6 (.answer .withheld))).answers 1 = true ∧ ((reading 1 (stream 6 (.answer .withheld))).port 1).frame = .responding
      ∧ ((reading 1 (stream 6 (.answer .withheld))).port 1).stream = some (stream 6 (.answer .withheld))
      ∧ (stream 6 (.answer .withheld)).passed < (stream 6 (.answer .withheld)).length ∧ (stream 6 (.answer .withheld)).passed + 1 ≠ (stream 6 (.answer .withheld)).stopAt
      ∧ (stream 6 (.answer .withheld)).reportedWithheld = false := by decide

theorem witness_ReadBytePassed_outside :
    (reading 1 (stream 0 (.answer .outside))).answers 1 = true ∧ ((reading 1 (stream 0 (.answer .outside))).port 1).frame = .responding
      ∧ ((reading 1 (stream 0 (.answer .outside))).port 1).stream = some (stream 0 (.answer .outside))
      ∧ (stream 0 (.answer .outside)).passed < (stream 0 (.answer .outside)).length ∧ (stream 0 (.answer .outside)).passed + 1 ≠ (stream 0 (.answer .outside)).stopAt
      ∧ (stream 0 (.answer .outside)).reportedOutside = false := by decide

/-- A later byte of the same kind, and a byte of a READ that ended FAULT. -/
theorem witness_ReadBytePassed_again :
    (reading 1 { stream 1 (.answer .withheld) with reportedWithheld := true }).answers 1 = true
      ∧ ((reading 1 { stream 1 (.answer .withheld) with reportedWithheld := true }).port 1).stream
          = some { stream 1 (.answer .withheld) with reportedWithheld := true }
      ∧ ((reading 1 { stream 1 (.answer .outside) with reportedOutside := true }).port 1).stream
          = some { stream 1 (.answer .outside) with reportedOutside := true }
      ∧ ((reading 1 (stream 0 (.raw [] true))).port 1).stream = some (stream 0 (.raw [] true))
      ∧ ((reading 1 (stream 0 (.answer .fault))).port 1).stream = some (stream 0 (.answer .fault))
      ∧ (stream 1 (.answer .withheld)).passed + 1 ≠ (stream 1 (.answer .withheld)).stopAt := by decide

/-- A RAW byte that is ready, and one that arrives while the RAW READ runs. -/
theorem witness_ReadBytePassed_raw :
    (reading 0 (stream 0 (.raw [7, 8] false))).answers 0 = true
      ∧ ((reading 0 (stream 0 (.raw [7, 8] false))).port 0).stream = some (stream 0 (.raw [7, 8] false))
      ∧ (rawRunning 0).answers 0 = true ∧ ((rawRunning 0).port 0).frame = .responding
      ∧ ((rawRunning 0).port 0).stream = some (stream 0 (.raw [] false)) ∧ (rawRunning 0).fc.port = .op (rawOp 0)
      ∧ (rawOp 0).req.purpose = .raw 0 ∧ (rawOp 0).req.live = true ∧ (rawOp 0).delivered + 1 < (rawOp 0).req.len
      ∧ (rawRunning 7).fc.port = .op (rawOp 7) ∧ (rawOp 7).req.len ≤ (rawOp 7).delivered + 1
      ∧ (stream 0 (.raw [] false)).stalled = true := by decide

/-- The last byte of a page: of the READ; with no window behind it; with the next page present in another slot. -/
theorem witness_ReadBytePassed_page_end :
    (reading 1 (stream 7 (.slot 3))).answers 1 = true
      ∧ ((reading 1 (stream 7 (.slot 3))).port 1).stream = some (stream 7 (.slot 3))
      ∧ (stream 7 (.slot 3)).passed + 1 = (stream 7 (.slot 3)).stopAt
      ∧ (stream 7 (.slot 3)).passed + 1 = (stream 7 (.slot 3)).length ∧ base.pb.prefetch = []
      ∧ ((reading 1 (atPageEnd 40956)).port 1).stream = some (atPageEnd 40956)
      ∧ (atPageEnd 40956).passed + 1 = (atPageEnd 40956).stopAt ∧ (atPageEnd 40956).passed + 1 < (atPageEnd 40956).length
      ∧ (reading 1 (atPageEnd 40956)).windowAt 1 ((40956 + 3 + 1) % 268435456 / 4096) = .none
      ∧ (reading 1 (atPageEnd 4092)).windowAt 1 ((4092 + 3 + 1) % 268435456 / 4096) = .image 1
      ∧ ((reading 1 (atPageEnd 4092)).image 1).state = .accepted ∧ (reading 1 (atPageEnd 4092)).pageState 1 (1 - 0) ≠ .bad
      ∧ ((reading 1 (atPageEnd 4092)).takeSlot 4 .valid 1 1 []).present 1 (1 - 0) = some 4 := by decide

theorem witness_ReadBytePassed_status :
    (reading 1 (stream 8 (.answer .ok))).answers 1 = true ∧ ((reading 1 (stream 8 (.answer .ok))).port 1).frame = .responding
      ∧ ((reading 1 (stream 8 (.answer .ok))).port 1).stream = some (stream 8 (.answer .ok))
      ∧ (stream 8 (.answer .ok)).length ≤ (stream 8 (.answer .ok)).passed := by decide

theorem witness_ReadBytePassed_stalled :
    (reading 1 (stream 7 (.stallFill 1 0))).answers 1 = true ∧ ((reading 1 (stream 7 (.stallFill 1 0))).port 1).frame = .responding
      ∧ ((reading 1 (stream 7 (.stallFill 1 0))).port 1).stream = some (stream 7 (.stallFill 1 0))
      ∧ (stream 7 (.stallFill 1 0)).passed < (stream 7 (.stallFill 1 0)).length ∧ (stream 7 (.stallFill 1 0)).stalled = true := by decide

theorem witness_ReadTaken_outside :
    base.ready 1 = true ∧ base.pb.prefetch = [] ∧ 1 ≤ (1 : BitVec 16).toNat ∧ (1 : BitVec 16).toNat ≤ 8192
      ∧ base.windowAt 1 ((0 * 16777216 + (40960 : BitVec 24).toNat) / 4096) = .none := by decide

theorem witness_ReadTaken_checking :
    (base.modImage 1 (fun w => { w with state := .checking })).ready 1 = true ∧ (base.modImage 1 (fun w => { w with state := .checking })).pb.prefetch = []
      ∧ (base.modImage 1 (fun w => { w with state := .checking })).windowAt 1 0 = .image 1 ∧ ((base.modImage 1 (fun w => { w with state := .checking })).image 1).state = .checking := by decide

theorem witness_ReadTaken_rejected :
    (base.modImage 1 (fun w => { w with state := .rejected })).ready 1 = true ∧ (base.modImage 1 (fun w => { w with state := .rejected })).pb.prefetch = []
      ∧ (base.modImage 1 (fun w => { w with state := .rejected })).windowAt 1 0 = .image 1 ∧ ((base.modImage 1 (fun w => { w with state := .rejected })).image 1).state = .rejected := by decide

theorem witness_ReadTaken_bad :
    (base.setPageState 1 0 .bad).ready 1 = true ∧ (base.setPageState 1 0 .bad).pb.prefetch = []
      ∧ (base.setPageState 1 0 .bad).windowAt 1 0 = .image 1 ∧ ((base.setPageState 1 0 .bad).image 1).state = .accepted ∧ (base.setPageState 1 0 .bad).pageState 1 (0 - ((base.setPageState 1 0 .bad).image 1).loadBase) = .bad := by decide

theorem witness_ReadTaken_present :
    (base.takeSlot 3 .valid 1 0 []).ready 1 = true ∧ (base.takeSlot 3 .valid 1 0 []).pb.prefetch = []
      ∧ (base.takeSlot 3 .valid 1 0 []).windowAt 1 0 = .image 1 ∧ ((base.takeSlot 3 .valid 1 0 []).image 1).state = .accepted ∧ (base.takeSlot 3 .valid 1 0 []).pageState 1 (0 - ((base.takeSlot 3 .valid 1 0 []).image 1).loadBase) ≠ .bad
      ∧ (base.takeSlot 3 .valid 1 0 []).present 1 (0 - ((base.takeSlot 3 .valid 1 0 []).image 1).loadBase) = some 3 := by decide

/-- ReadTaken, in a FAILED window. -/
theorem witness_ReadTaken_failed :
    (base.modImage 1 (fun w => { w with state := .failed })).ready 1 = true
      ∧ (base.modImage 1 (fun w => { w with state := .failed })).windowAt 1 0 = .image 1
      ∧ ((base.modImage 1 (fun w => { w with state := .failed })).image 1).state = .failed
      ∧ ((base.modImage 1 (fun w => { w with state := .failed })).setPageState 1 0 .bad).pageState 1 0 = .bad := by decide

/-- ReadTaken in the span of S0, port 0 with E 12: FREE, its first page; beyond the slot; SEALING; OPEN; and in factory
state. -/
theorem witness_ReadTaken_staging :
    (inStaging base).ready 0 = true ∧ (inStaging base).pb.prefetch = []
      ∧ (inStaging base).windowAt 0 (12 * 16777216 / 4096) = .staging 0 ∧ ((inStaging base).staging 0).state = .free
      ∧ (inStaging staged).windowAt 0 ((12 * 16777216 + 1048576) / 4096) = .staging 0
      ∧ stagingBasePage 0 + ((inStaging staged).staging 0).sizePages ≤ (12 * 16777216 + 1048576) / 4096
      ∧ ((inStaging (staged.modStaging 0 (fun w => { w with state := .sealing }))).staging 0).state = .sealing
      ∧ ((inStaging staged).staging 0).state = .opened
      ∧ 12 * 16777216 / 4096 < stagingBasePage 0 + ((inStaging staged).staging 0).sizePages
      ∧ (inStaging staged).fc.port = .idle ∧ (inStaging staged).fc.erase = .none ∧ (inStaging staged).fc.noneWaiting = true
      ∧ (inStaging (running (walkerRead .directory 2048))).fc.port ≠ .idle
      ∧ factory.ready 0 = true ∧ factory.windowAt 0 0 = .factory := by decide

/-- AbsentPageNeeded: no record; a DEMAND record; a SWEEP record, READY, READING or parked; the port origin of another
record. -/
theorem witness_AbsentPageNeeded :
    base.ready 1 = true ∧ base.pb.prefetch = [] ∧ base.windowAt 1 0 = .image 1 ∧ (base.image 1).state = .accepted
      ∧ base.pageState 1 0 ≠ .bad ∧ base.present 1 0 = none
      ∧ base.record (.image 1) 0 = none ∧ base.isOrigin 1 = false
      ∧ (needing [{ absentPage .demand with origin := some 2 }]).record (.image 1) 0
          = some { absentPage .demand with origin := some 2 }
      ∧ (needing [absentPage .sweep]).record (.image 1) 0 = some (absentPage .sweep)
      ∧ (needing [absentPage .sweep]).isOrigin 1 = false ∧ (absentPage .sweep).dest = .scratch
      ∧ (absentPage .sweep).state = .reading
      ∧ (needing [{ absentPage .sweep with state := .ready }]).fc.port ≠ .idle
      ∧ (needing [absentPage .sweep]).fc.erase = .none
      ∧ ((needing [absentPage .sweep]).fc.queues.find (.page (.image 1) 0)).map (·.cls) = some .sweep
      ∧ (needing [{ absentPage .demand with page := 5, origin := some 1 }]).isOrigin 1 = true
      ∧ (needing [{ absentPage .demand with page := 5, origin := some 1 }]).record (.image 1) 0 = none := by decide

theorem witness_SetExtSetsE_taken :
    base.ready 1 = true ∧ base.factory = false ∧ (15 : Byte).toNat ≤ 15 ∧ (base.port 1).e = BitVec.ofNat 4 (0 : Byte).toNat
      ∧ 1 ≤ (8192 : BitVec 16).toNat ∧ (8192 : BitVec 16).toNat ≤ 8192 ∧ base.pb.prefetch = [] := by decide

theorem witness_SetExtSetsE_refused :
    15 < (16 : Byte).toNat ∧ factory.ready 0 = true ∧ factory.factory = true ∧ State.reset.answers 1 = false := by decide

theorem witness_SetExtSetsE_deferred :
    (withPort 1 (fun u => { u with background := some 0x12 })).answers 1 = true
      ∧ ((withPort 1 (fun u => { u with background := some 0x12 })).port 1).ignoring = false
      ∧ ((withPort 1 (fun u => { u with background := some 0x12 })).port 1).frame = .idle
      ∧ ((withPort 1 (fun u => { u with background := some 0x12 })).port 1).background.isSome = true := by decide

/-- A port ready for STATUS, REPORT and VIOLATION-READ, its violation record empty. -/
theorem witness_ViolationReadEmptiesRecord_RecordsComposedAtTake :
    base.ready 1 = true ∧ base.factory = false ∧ (base.port 1).violation = Violation.empty := by decide

/-- RecordsComposedAtTake: a window bound to the port, and one in factory state; the stream idle, active and parked. -/
theorem witness_RecordsComposedAtTake :
    (base.boundTags 1)[0]? = some 1 ∧ factory.boundTags 1 = [] ∧ (base.image 1).slot.isSome = true
      ∧ base.sw.inFlight = .none ∧ base.streamState = .idle
      ∧ ({ base with sw := { base.sw with inFlight := .groupCheck } } : State).streamState = .active := by decide

theorem witness_NoticeReadEmptiesSet :
    base.ready 1 = true ∧ Event.verdict.urgent = false ∧ ((after (.noticeRead 1) base).port 1).mask &&& Event.verdict.bit ≠ 0 := by decide

theorem witness_NoticeMaskSetsMask :
    base.ready 1 = true ∧ ((after (.noticeMask 1 0x7E) (base.post 1 .permit)).port 1).noticeLevel = false
      ∧ ((after (.noticeMask 1 0x7E) (base.post 1 .violation)).port 1).noticeLevel = true := by decide

theorem witness_ReportClearEmptiesTimeout :
    base.formatterReady 0 = true ∧ base.ready 0 = true ∧ base.ready 1 = true ∧ base.formatterPort ≠ some 1
      ∧ factory.ready 0 = true ∧ factory.formatterPort = some 0 ∧ factory.factory = true := by decide

theorem witness_BootDoneConfirms :
    (base.modLife 1 (fun l => { l with state := .running })).ready 1 = true
      ∧ (base.modLife 1 (fun l => { l with state := .running })).factory = false
      ∧ ((base.modLife 1 (fun l => { l with state := .running })).life 1).state = .running
      ∧ base.ready 1 = true ∧ base.factory = false ∧ (base.life 1).state = .confirmed := by decide

theorem witness_PostingFollowsHoldoff :
    ({ PortUnit.reset with events := 1 }).noticeLevel = true ∧ ({ PortUnit.reset with events := 1 }).holdoff = none
      ∧ Event.violation.urgent = true ∧ PortUnit.reset.mask &&& Event.violation.bit ≠ 0
      ∧ ({ PortUnit.reset with events := 1, holdoff := some 2000 }).noticeLevel = false
      ∧ Event.permit.urgent = false ∧ PortUnit.reset.mask &&& Event.permit.bit ≠ 0 ∧ PortUnit.reset.noticeLevel = false
      ∧ ({ PortUnit.reset with mask := 0x7E }).mask &&& Event.permit.bit = 0
      ∧ ({ PortUnit.reset with mask := 0x7E }).noticeLevel = false
      ∧ (PortUnit.post 8 .violation PortUnit.reset).noticeLevel = true := by decide

theorem witness_StageOpenOpensWindow_refused :
    base.formatterReady 0 = true ∧ 7 < (8 : Byte).toNat ∧ (7 : Byte).toNat = (7 : Tag).val ∧ (base.image 7).state ≠ .accepted
      ∧ (base.modLife 0 (fun l => { l with state := .running })).formatterReady 0 = true
      ∧ ((base.modLife 0 (fun l => { l with state := .running })).life 0).state ≠ .confirmed := by decide

theorem witness_StageOpenOpensWindow_not_valid :
    ({ base with mu := { base.mu with view := none } } : State).formatterReady 0 = true
      ∧ (1 : Byte).toNat = (1 : Tag).val ∧ (base.life 0).state = .confirmed
      ∧ (base.image 1).state = .accepted ∧ (base.image 1).slot = some .a
      ∧ ({ base with mu := { base.mu with view := none } } : State).slotValid 1 SlotId.a.other = false := by decide

theorem witness_StageOpenOpensWindow_busy :
    staged.formatterReady 0 = true ∧ (1 : Byte).toNat = (1 : Tag).val ∧ (staged.life 0).state = .confirmed
      ∧ (staged.image 1).state = .accepted ∧ (staged.image 1).slot = some .a ∧ staged.slotValid 1 SlotId.a.other = true
      ∧ (∃ w, (staged.staging w).tag = 1 ∧ ((staged.staging w).state = .opened ∨ (staged.staging w).state = .sealing)) := by decide

theorem witness_StageOpenOpensWindow_full :
    (staged.modStaging 1 (fun _ => openWindow)).formatterReady 0 = true ∧ (2 : Byte).toNat = (2 : Tag).val
      ∧ ((staged.modStaging 1 (fun _ => openWindow)).life 0).state = .confirmed
      ∧ ((staged.modStaging 1 (fun _ => openWindow)).image 2).state = .accepted
      ∧ ((staged.modStaging 1 (fun _ => openWindow)).image 2).slot = some .a
      ∧ (staged.modStaging 1 (fun _ => openWindow)).slotValid 2 SlotId.a.other = true
      ∧ (∀ w, ((staged.modStaging 1 (fun _ => openWindow)).staging w).tag = 2 →
          ((staged.modStaging 1 (fun _ => openWindow)).staging w).state ≠ .opened
            ∧ ((staged.modStaging 1 (fun _ => openWindow)).staging w).state ≠ .sealing)
      ∧ (∀ w, ((staged.modStaging 1 (fun _ => openWindow)).staging w).state ≠ .free
          ∧ ((staged.modStaging 1 (fun _ => openWindow)).staging w).state ≠ .discarded) := by decide

theorem witness_StageOpenOpensWindow_opened :
    staged.formatterReady 0 = true ∧ (2 : Byte).toNat = (2 : Tag).val ∧ (staged.life 0).state = .confirmed
      ∧ (staged.image 2).state = .accepted ∧ (staged.image 2).slot = some .a ∧ staged.slotValid 2 SlotId.a.other = true
      ∧ (∀ w, (staged.staging w).tag = 2 → (staged.staging w).state ≠ .opened ∧ (staged.staging w).state ≠ .sealing)
      ∧ (staged.staging 1).state = .free
      ∧ (∀ v, v < 1 → (staged.staging v).state ≠ .free ∧ (staged.staging v).state ≠ .discarded) := by decide

theorem witness_staging_argument_out_of_range :
    base.formatterReady 0 = true ∧ 1 < (2 : Byte).toNat := by decide

theorem witness_staging_not_open :
    base.formatterReady 0 = true ∧ (1 : Byte).toNat = (1 : StagingId).val ∧ (base.staging 1).state ≠ .opened := by decide

theorem witness_StageEraseRequestsErase :
    staged.formatterReady 0 = true ∧ (0 : Byte).toNat = (0 : StagingId).val ∧ (staged.staging 0).state = .opened
      ∧ (staged.staging 0).sizePages / 16 ≤ (16 : BitVec 16).toNat
      ∧ (15 : BitVec 16).toNat < (staged.staging 0).sizePages / 16
      ∧ staged.fc.port = .idle ∧ staged.fc.erase = .none ∧ staged.fc.noneWaiting = true
      ∧ ({ staged with fc := (running (walkerRead .directory 2048)).fc } : State).formatterReady 0 = true
      ∧ ({ staged with fc := (running (walkerRead .directory 2048)).fc } : State).fc.port ≠ .idle := by decide

theorem witness_StageWriteRequestsProgram :
    staged.formatterReady 0 = true ∧ 1 ≤ [(1 : Byte), 2].length ∧ [(1 : Byte), 2].length ≤ 256
      ∧ (0 : Byte).toNat = (0 : StagingId).val ∧ (staged.staging 0).state = .opened
      ∧ (staged.staging 0).sizePages * 4096 < (1048575 : BitVec 32).toNat + [(1 : Byte), 2].length
      ∧ (255 : BitVec 32).toNat / 256 ≠ ((255 : BitVec 32).toNat + [(1 : Byte), 2].length - 1) / 256
      ∧ (254 : BitVec 32).toNat + [(1 : Byte), 2].length ≤ (staged.staging 0).sizePages * 4096
      ∧ (254 : BitVec 32).toNat / 256 = ((254 : BitVec 32).toNat + [(1 : Byte), 2].length - 1) / 256
      ∧ (staged.staging 0).warned = false
      ∧ ((staged.staging 0).sizePages / 16 - 1) * 65536 ≤ (1048574 : BitVec 32).toNat
      ∧ (1048574 : BitVec 32).toNat + 2 ≤ (staged.staging 0).sizePages * 4096
      ∧ (254 : BitVec 32).toNat < ((staged.staging 0).sizePages / 16 - 1) * 65536
      ∧ staged.fc.port = .idle ∧ staged.fc.erase = .none ∧ staged.fc.noneWaiting = true := by decide

theorem witness_SealTaken :
    staged.formatterReady 0 = true ∧ (0 : Byte).toNat = (0 : StagingId).val ∧ (staged.staging 0).state = .opened
      ∧ (staged.staging 0).written = true
      ∧ ({ staged with mu := { staged.mu with sealCheck := some (SealCheck.forWindow 1) } } : State).mu.sealCheck.isSome = true
      ∧ staged.mu.sealCheck = none ∧ staged.mu.sealRequests = [] ∧ staged.mu.holder = .none
      ∧ staged.mu.walker.phase = .idle
      ∧ ({ staged with fc := (running (walkerRead .directory 2048)).fc } : State).fc.port ≠ .idle
      ∧ ({ staged with fc := (running (walkerRead .directory 2048)).fc } : State).fc.erase = .none := by decide

theorem witness_StageCloseFreesWindow :
    staged.formatterReady 0 = true ∧ (1 : Byte).toNat = (1 : StagingId).val ∧ 1 < (2 : Byte).toNat := by decide

theorem witness_CommitQueuesFloor_refused :
    base.formatterReady 0 = true ∧ 7 < (8 : Byte).toNat ∧ (7 : Byte).toNat = (7 : Tag).val ∧ (base.image 7).state ≠ .accepted
      ∧ ((base.modImage 1 (fun w => { w with good := 9 })).image 1).good ≠ ((base.modImage 1 (fun w => { w with good := 9 })).image 1).pageCount := by decide

theorem witness_CommitQueuesFloor_exhausted :
    ({ base with ots := { base.ots with floors := base.ots.floors.set 1 (List.replicate 24 4) } } : State).formatterReady 0 = true
      ∧ (1 : Byte).toNat = (1 : Tag).val ∧ (base.image 1).state = .accepted ∧ (base.image 1).good = (base.image 1).pageCount
      ∧ (base.image 1).owner = some 1 ∧ (base.life 1).state = .confirmed
      ∧ (base.image 1).version ≠ ({ base with ots := { base.ots with floors := base.ots.floors.set 1 (List.replicate 24 4) } } : State).floorOf 1
      ∧ 24 ≤ ((base.ots.floors.set 1 (List.replicate 24 4))[1]).length := by decide

theorem witness_CommitQueuesFloor_equal :
    ({ base with ots := { base.ots with floors := base.ots.floors.set 1 [5] } } : State).formatterReady 0 = true
      ∧ (base.image 1).version = ({ base with ots := { base.ots with floors := base.ots.floors.set 1 [5] } } : State).floorOf 1 := by decide

theorem witness_CommitQueuesFloor_greater :
    base.formatterReady 0 = true ∧ (1 : Byte).toNat = (1 : Tag).val ∧ (base.image 1).state = .accepted
      ∧ (base.image 1).good = (base.image 1).pageCount ∧ (base.image 1).owner = some 1 ∧ (base.life 1).state = .confirmed
      ∧ base.floorOf 1 < (base.image 1).version ∧ (base.ots.floors[(1 : Tag)]).length < 24
      ∧ base.ots.running = none ∧ base.ots.queue = []
      ∧ (writing (.retire 0) []).ots.running.isSome = true := by decide

theorem witness_RevokeQueuesRow :
    base.formatterReady 0 = true ∧ (7 : Serial) ≠ 0 ∧ (∃ t, (base.image t).state = .accepted ∧ (base.image t).serial = 7)
      ∧ (9 : Serial) ≠ 0 ∧ (∀ t, (base.image t).state = .accepted → (base.image t).serial ≠ 9)
      ∧ (9 : Serial) ∉ base.ots.revoked ∧ base.ots.revoked.length < 24 ∧ base.ots.running = none ∧ base.ots.queue = [] := by decide

theorem witness_RevokeQueuesRow_listed :
    ({ base with ots := { base.ots with revoked := [9] } } : State).formatterReady 0 = true
      ∧ (9 : Serial) ∈ ({ base with ots := { base.ots with revoked := [9] } } : State).ots.revoked
      ∧ ({ base with ots := { base.ots with revoked := List.replicate 24 1 } } : State).formatterReady 0 = true
      ∧ (9 : Serial) ∉ ({ base with ots := { base.ots with revoked := List.replicate 24 1 } } : State).ots.revoked
      ∧ 24 ≤ ({ base with ots := { base.ots with revoked := List.replicate 24 1 } } : State).ots.revoked.length := by decide

theorem witness_RetireRootQueuesRow :
    base.formatterReady 0 = true ∧ 3 < (4 : Byte).toNat ∧ (3 : Byte).toNat = (3 : Fin 4).val
      ∧ (base.ots.rootKeys[(3 : Fin 4)]) = none
      ∧ (base.ots.rootKeys[(0 : Fin 4)]).isSome = true ∧ (base.ots.retired[(0 : Fin 4)]) = false
      ∧ (∃ q : Fin 4, q ≠ 0 ∧ (base.ots.rootKeys[q]).isSome = true ∧ (base.ots.retired[q]) = false)
      ∧ base.ots.running = none ∧ base.ots.queue = [] := by decide

theorem witness_RetireRootQueuesRow_last :
    ({ base with ots := { base.ots with retired := base.ots.retired.set 1 true } } : State).formatterReady 0 = true
      ∧ (∀ q : Fin 4, q ≠ 0 → (base.ots.rootKeys[q]) = none ∨ ((base.ots.retired.set 1 true)[q]) = true)
      ∧ (base.ots.rootKeys[(0 : Fin 4)]).isSome = true ∧ ((base.ots.retired.set 1 true)[(0 : Fin 4)]) = false := by decide

/-- A key of 512 zero bytes. -/
def zeroKey : Key := List.replicate 512 0

theorem zeroKey_length : zeroKey.length = 512 := List.length_replicate

/-- ProvisionQueuesRows, in factory state with every root key slot EMPTY. -/
theorem witness_ProvisionQueuesRows :
    factory.ready 0 = true ∧ factory.formatterPort = some 0 ∧ (Instr.provision 0 configBytes [zeroKey]).wf = true
      ∧ factory.ots.config = none ∧ configValid configBytes = true ∧ configValid (configBytes.set 4 0) = false
      ∧ (∀ (r : Fin 4) (key : Key), [zeroKey][r.val]? = some key → factory.ots.retired[r] = false ∧
          (factory.ots.rootKeys[r] = none ∨ factory.ots.rootKeys[r] = some key))
      ∧ factory.ots.running = none ∧ factory.ots.queue = [] :=
  ⟨by decide, by decide, by simp [Instr.wf, zeroKey_length]; decide, rfl, by decide, by decide,
    fun r _ _ => ⟨by fin_cases r <;> rfl, .inl (by fin_cases r <;> rfl)⟩, rfl, rfl⟩

/-- ProvisionQueuesRows, where slot 0 holds another key; and outside factory state. -/
theorem witness_ProvisionQueuesRows_refused :
    (∃ (r : Fin 4) (key : Key), [zeroKey][r.val]? = some key
        ∧ ((factory.ots.rootKeys.set 0 (some []))[r] ≠ none ∨ factory.ots.retired[r] = true)
        ∧ (factory.ots.retired[r] = true ∨ (factory.ots.rootKeys.set 0 (some []))[r] ≠ some key))
      ∧ base.ready 0 = true ∧ base.formatterPort = some 0 ∧ base.ots.config.isSome = true :=
  ⟨⟨0, zeroKey, rfl, .inl (by decide), .inr (fun h => by simpa [zeroKey_length] using congrArg (Option.map List.length) h)⟩, by decide, by decide, by decide⟩

/-- R192, each condition broken in turn: no formatter and two; an action of 4; a tag bound to port 5; a port without BOOT tag;
two tags of one port at one place; a formatter tag above 40960; H 32; 128 sectors. -/
theorem test_configValid_each_condition :
    [(0, 1), (4, 0), (2, 4), (28, 5), (21, 2), (32, 1), (19, 0xA1), (48, 32), (53, 0)].all
      (fun e => ! configValid (configBytes.set e.1 (BitVec.ofNat 8 e.2))) = true := by decide

theorem witness_RowWriteCompletes_revocation :
    (writing (.revocation 9) []).loaded = true ∧ (writing (.revocation 9) []).noneDeferred = true ∧ ((writing (.revocation 9) []).port 0).frame = .executing 0x17
      ∧ (writing (.revocation 9) []).ots.running = some { row := .revocation 9, source := some (0, 0x17) } ∧ (writing (.revocation 9) []).ots.queue = [] ∧ (writing (.revocation 9) []).ots.revoked.length < 24 := by decide

theorem witness_RowWriteCompletes_floor :
    (writing (.floor 1 5) []).loaded = true ∧ (writing (.floor 1 5) []).noneDeferred = true ∧ ((writing (.floor 1 5) []).port 0).frame = .executing 0x17
      ∧ (writing (.floor 1 5) []).ots.running = some { row := .floor 1 5, source := some (0, 0x17) } ∧ (writing (.floor 1 5) []).ots.queue = [] ∧ ((writing (.floor 1 5) []).ots.floors[(1 : Tag)]).length < 24 := by decide

theorem witness_RowWriteCompletes_retire :
    (writing (.retire 1) []).loaded = true ∧ (writing (.retire 1) []).noneDeferred = true ∧ ((writing (.retire 1) []).port 0).frame = .executing 0x17
      ∧ (writing (.retire 1) []).ots.running = some { row := .retire 1, source := some (0, 0x17) } ∧ (writing (.retire 1) []).ots.queue = [] := by decide

theorem witness_RowWriteCompletes_key :
    (writing (.rootKey 2 []) [{ row := .retire 0, source := none }]).loaded = true ∧ (writing (.rootKey 2 []) [{ row := .retire 0, source := none }]).noneDeferred = true ∧ ((writing (.rootKey 2 []) [{ row := .retire 0, source := none }]).port 0).frame = .executing 0x17
      ∧ (writing (.rootKey 2 []) [{ row := .retire 0, source := none }]).ots.running = some { row := .rootKey 2 [], source := some (0, 0x17) } ∧ (writing (.rootKey 2 []) [{ row := .retire 0, source := none }]).ots.queue = { row := .retire 0, source := none } :: []
      ∧ (writing (.rootKey 2 []) [{ row := .retire 0, source := none }]).ots.rootKeys[(2 : Fin 4)] = none := by decide

theorem witness_RowWriteCompletes_config :
    ({ (writing (.config configBytes) []) with ots := { (writing (.config configBytes) []).ots with config := none } } : State).ots.running
        = some { row := .config configBytes, source := some (0, 0x17) }
      ∧ ({ (writing (.config configBytes) []) with ots := { (writing (.config configBytes) []).ots with config := none } } : State).noneDeferred = true
      ∧ ({ (writing (.config configBytes) []) with ots := { (writing (.config configBytes) []).ots with config := none } } : State).loaded = true := by decide

/-- PowerOnResetsBlocks: a WRITTEN config row with a ROLE for port 1, and a BLANK one. -/
theorem witness_PowerOnResetsBlocks :
    base.ots.config = some configBytes ∧ ((configOfBytes configBytes).ports[(1 : PortId)]).role.isSome = true
      ∧ ((after .powerOnReset base).life 1).state = .held ∧ factory.ots.config = none
      ∧ ((after .powerOnReset factory).life 1).state = .unused := by decide

theorem witness_RestartKeepsStore :
    base.formatterReady 0 = true := by decide

theorem witness_StoreLoaded :
    State.reset.loaded = false ∧ State.reset.ots.running = none ∧ State.reset.ots.config = none
      ∧ ({ State.reset with ots := base.ots } : State).ots.config = some configBytes
      ∧ ({ State.reset with ots := base.ots } : State).ots.running = none
      ∧ ({ State.reset with ots := base.ots } : State).fc.port = .reset .first
      ∧ ({ State.reset with ots := base.ots } : State).fc.erase = .none
      ∧ State.reset.lc.cause = .powerOn
      ∧ (after (.restart 0) base).lc.cause ≠ .powerOn ∧ (after (.restart 0) base).loaded = false
      ∧ (after (.restart 0) base).ots.config = some configBytes ∧ base.loaded = true
      ∧ ({ State.reset with ots := base.ots, fc := { FlashCtl.reset with port := .idle } } : State).fc.port = .idle
      ∧ ({ State.reset with ots := base.ots, fc := { FlashCtl.reset with port := .idle } } : State).fc.noneWaiting = true := by
  decide

theorem witness_HoldFollowsPortState :
    base.loaded = true ∧ State.reset.loaded = false := by decide

/-- Port 1 PREFETCH with a boot set of 2 pages, of which these are held. -/
def prefetching (held : List Nat) : State :=
  base.modLife 1 (fun l => { l with state := .prefetch, bootSet := some 2, heldPages := held })

/-- PortReleased: released; blocked by a FAILED window; a check-before-release window lost, and one not yet checked. -/
theorem witness_PortReleased :
    ((prefetching [0, 1]).life 1).state = .prefetch ∧ ((prefetching [0, 1]).life 1).bootSet = some 2
      ∧ ((prefetching [0, 1]).life 1).heldPages.length = 2
      ∧ (∀ t, ((prefetching [0, 1]).image t).owner = some 1 → ((prefetching [0, 1]).image t).checkBeforeRelease = false
          ∧ ((prefetching [0, 1]).image t).state ≠ .failed)
      ∧ (∀ t, ∀ i < 2, ((prefetching [0, 1]).life 1).bootTag = some t → (prefetching [0, 1]).pageState t i ≠ .bad)
      ∧ ((prefetching [0, 1]).portConfig 1).isSome = true ∧ (prefetching [0, 1]).loaded = true
      ∧ (prefetching [0, 1]).onFailHold 1 = true
      ∧ (((prefetching [0, 1]).modImage 1 (fun w => { w with state := .failed })).image 1).owner = some 1
      ∧ (((prefetching [0, 1]).modImage 1 (fun w => { w with state := .failed, checkBeforeRelease := true })).image 1).checkBeforeRelease = true
      ∧ (((prefetching [0, 1]).modImage 1 (fun w => { w with good := 3, checkBeforeRelease := true })).image 1).good
          ≠ (((prefetching [0, 1]).modImage 1 (fun w => { w with good := 3, checkBeforeRelease := true })).image 1).pageCount
      ∧ ((prefetching [0]).life 1).heldPages.length ≠ 2
      ∧ (((prefetching [0, 1]).setPageState 1 1 .bad).pageState 1 1) = .bad := by decide

theorem witness_DeadlineExpiryActs_none :
    ((base.modLife 0 (fun l => { l with state := .running, deadline := some 2000 })).life 0).deadline = some 2000 ∧ ((base.modLife 0 (fun l => { l with state := .running, deadline := some 2000 })).portConfig 0).map (·.action) = some .none := by decide

theorem witness_DeadlineExpiryActs_notice :
    ((base.modLife 2 (fun l => { l with state := .running, deadline := some 2000 })).life 2).deadline = some 2000 ∧ ((base.modLife 2 (fun l => { l with state := .running, deadline := some 2000 })).portConfig 2).map (·.action) = some .notice := by decide

theorem witness_DeadlineExpiryActs_system :
    ((base.modLife 3 (fun l => { l with state := .running, deadline := some 2000 })).life 3).deadline = some 2000 ∧ ((base.modLife 3 (fun l => { l with state := .running, deadline := some 2000 })).portConfig 3).map (·.action) = some .system := by decide

theorem witness_DeadlineExpiryActs_stopped :
    (base.life 1).deadline = none := by decide

/-- Port 1 RUNNING with its deadline, its BOOT tag on slot A. -/
def deadlineRunning : State := base.modLife 1 (fun l => { l with state := .running, deadline := some 2000 })

theorem witness_FallbackActs :
    (deadlineRunning.life 1).deadline = some 2000 ∧ (deadlineRunning.portConfig 1).map (·.action) = some .fallback
      ∧ (deadlineRunning.life 1).bootTag = some 1 ∧ deadlineRunning.lc.fallbackUsed[(1 : Tag)] = false ∧ (deadlineRunning.image 1).state = .accepted
      ∧ (deadlineRunning.image 1).slot = some .a ∧ deadlineRunning.slotValid 1 SlotId.a.other = true
      ∧ (deadlineRunning.modStaging 0 (fun _ => openWindow)).staging 0 = openWindow ∧ openWindow.fallsBack 1 = true
      ∧ (deadlineRunning.staging 1).fallsBack 1 = false := by decide

theorem witness_FallbackActs_impossible :
    (deadlineRunning.life 1).deadline = some 2000 ∧ ((deadlineRunning.modImage 1 (fun w => { w with state := .failed })).image 1).state ≠ .accepted := by decide

/-- FallbackActs, the other slot's reason: behind a walker at work; NONE or another one before an idle walker. -/
theorem witness_FallbackActs_walker :
    (walking deadlineRunning []).mu.walker.phase ≠ .idle ∧ deadlineRunning.mu.walker.phase = .idle
      ∧ deadlineRunning.mu.tagQueue = [] ∧ (deadlineRunning.image 1).reason SlotId.a.other = .none
      ∧ ((deadlineRunning.modImage 1 (fun w => { w with reasonB := .format })).image 1).reason SlotId.a.other ≠ .none
      ∧ (deadlineRunning.image 1).owner = some 1
      ∧ (deadlineRunning.image 1).range = some { start := 10, length := 10 }
      ∧ (∀ q t i, deadlineRunning.serving q ≠ some (.stallOrigin t i)) :=
  ⟨nofun, rfl, rfl, rfl, nofun, rfl, rfl, fun q t i => by fin_cases q <;> nofun⟩

/-- A directory read that has used its retry, about to end FAULT. -/
def directoryOp : CurrentOp := { req := walkerRead .directory 2048, delivered := 0, retryUsed := true, step := 0 }

theorem witness_DirectoryViewMade :
    (running (walkerRead .directory 2048)).noneDeferred = true
      ∧ (running (walkerRead .directory 2048)).fc.port
          = .op { req := walkerRead .directory 2048, delivered := 0, retryUsed := false, step := 0 }
      ∧ ({ base with fc := { base.fc with port := .reset (.failRead directoryOp) } } : State).noneDeferred = true
      ∧ fieldAt ((running (walkerRead .directory 8)).arriving
            { req := walkerRead .directory 8, delivered := 0, retryUsed := false, step := 0 } [1, 2, 3, 4]) 0 4 ≠ 0x44474654 := by decide

/-- Directory bytes with one entry: slot A of this tag. -/
def directoryOf (tag : Byte) : List Byte := [0x54, 0x46, 0x47, 0x44, 1, 0, 0, 0, tag, 0, 1, 0, 0xFF, 0xFF, 16, 0]
def directoryReading : State := running (walkerRead .directory 16)

/-- DirectoryViewMade, the tag queue: tag 1 is print-required and first. Its slot is VALID; only tag 0's is; none is. -/
theorem witness_DirectoryViewMade_queue (rank : Tag → Nat) (hr : rank = fun g => if g = 1 then 2 else 3) :
    directoryReading.fc.port = .op { req := walkerRead .directory 16, delivered := 0, retryUsed := false, step := 0 }
      ∧ directoryReading.cfg = some (configOfBytes configBytes)
      ∧ (∀ g : Tag,
          ((∃ h : Tag, ((configOfBytes configBytes).tags[h]).bound = ((configOfBytes configBytes).tags[g]).bound
              ∧ ((configOfBytes configBytes).tags[h]).boot = true
              ∧ ((configOfBytes configBytes).tags[h]).checkBeforeRelease = true) → rank g = 1)
          ∧ ((∀ h : Tag, ((configOfBytes configBytes).tags[h]).bound = ((configOfBytes configBytes).tags[g]).bound →
                ((configOfBytes configBytes).tags[h]).boot = true →
                ((configOfBytes configBytes).tags[h]).checkBeforeRelease = false) →
              rank g = if ((configOfBytes configBytes).tags[g]).printRequired then 2 else 3))
      ∧ (∀ g : Tag, g ∈ ([1, 0, 2, 3] : List Tag) ↔ ((configOfBytes configBytes).tags[g]).bound.isSome = true)
      ∧ ([1, 0, 2, 3] : List Tag).Pairwise (fun g h => rank g < rank h ∨ (rank g = rank h ∧ g < h))
      ∧ ((after (.directoryReadEnd (.complete (directoryOf 1))) directoryReading).image 1).reasonA = .none
      ∧ ((after (.directoryReadEnd (.complete (directoryOf 0))) directoryReading).image 1).reasonA ≠ .none
      ∧ ((after (.directoryReadEnd (.complete (directoryOf 0))) directoryReading).image 1).reasonB ≠ .none
      ∧ ((after (.directoryReadEnd (.complete (directoryOf 0))) directoryReading).image 0).reasonA = .none
      ∧ (∀ h ∈ ([1, 0, 2, 3] : List Tag),
          ((after (.directoryReadEnd (.complete [])) directoryReading).image h).reasonA ≠ .none
            ∧ ((after (.directoryReadEnd (.complete [])) directoryReading).image h).reasonB ≠ .none) := by
  subst hr
  decide +kernel

/-- DirectoryViewMade, a usable directory: slot A VALID and slot B NO_SLOT, and the slots of an entry behind it: one that
overlaps slot A (LAYOUT), one clear of it; a base 0 and an end above FLASH SECTORS (LAYOUT); a tag without an entry. -/
theorem witness_DirectoryViewMade_entries (bytes : List Byte)
    (h : bytes = [0x54, 0x46, 0x47, 0x44, 3, 0, 0, 0, 1, 0, 1, 0, 0xFF, 0xFF, 16, 0, 2, 0, 16, 0, 17, 0, 16, 0,
      3, 0, 0, 0, 0xF1, 3, 16, 0]) :
    fieldAt bytes 0 4 = 0x44474654 ∧ fieldAt bytes 4 1 ≤ 8
      ∧ ([1, 2, 3, 4] : List Tag).map (fun t => ((judgeDirectory 1024 bytes)[t]).reasonA) = [.none, .layout, .layout, .noSlot]
      ∧ ([1, 2, 3, 4] : List Tag).map (fun t => ((judgeDirectory 1024 bytes)[t]).reasonB) = [.noSlot, .none, .layout, .noSlot] := by
  subst h
  decide +kernel

theorem witness_ProbeOrdersSlots_a :
    (walking (quiet (walkerRead (.probe .a) 16)) []).calm = true
      ∧ (walking (quiet (walkerRead (.probe .a) 16)) []).fc.port = .op { req := walkerRead (.probe .a) 16, delivered := 0, retryUsed := false, step := 0 }
      ∧ (walking (quiet (walkerRead (.probe .a) 16)) []).mu.walker.entry = some (1, .first) ∧ (walking (quiet (walkerRead (.probe .a) 16)) []).mu.walker.probeA = some 4 := by decide

theorem witness_ProbeOrdersSlots_b :
    (walking (quiet (walkerRead (.probe .b) 16)) []).calm = true
      ∧ (walking (quiet (walkerRead (.probe .b) 16)) []).fc.port = .op { req := walkerRead (.probe .b) 16, delivered := 0, retryUsed := false, step := 0 }
      ∧ (walking (quiet (walkerRead (.probe .b) 16)) []).mu.walker.entry = some (1, .first) ∧ (walking (quiet (walkerRead (.probe .b) 16)) []).mu.walker.probeA = some 4 := by decide

theorem witness_CandidateChecked_passes :
    (walking (quiet (walkerRead .walkerManifest 69)) [.a]).calm = true ∧ (walking (quiet (walkerRead .walkerManifest 69)) [.a]).fc.port = .op { req := walkerRead .walkerManifest 69, delivered := 0, retryUsed := false, step := 0 }
      ∧ (walking (quiet (walkerRead .walkerManifest 69)) [.a]).mu.walker.entry = some (1, .first) ∧ (walking (quiet (walkerRead .walkerManifest 69)) [.a]).mu.walker.candidates = .a :: []
      ∧ ((walking (quiet (walkerRead .walkerManifest 69)) [.a]).fillBuffer ((walking (quiet (walkerRead .walkerManifest 69)) [.a]).arriving { req := walkerRead .walkerManifest 69, delivered := 0, retryUsed := false, step := 0 } manifestBytes)).candidateCheck
          (manifestOfBytes ((walking (quiet (walkerRead .walkerManifest 69)) [.a]).fillBuffer ((walking (quiet (walkerRead .walkerManifest 69)) [.a]).arriving { req := walkerRead .walkerManifest 69, delivered := 0, retryUsed := false, step := 0 } manifestBytes)).mu.buffer)
          1 .a (some .first) = .none
      ∧ (walking (quiet (walkerRead .walkerManifest 69)) [.a]).ke.current = none ∧ (walking (quiet (walkerRead .walkerManifest 69)) [.a]).ke.queue = [] := by decide

theorem witness_CandidateChecked_next :
    (walking (quiet (walkerRead .walkerManifest 69)) [.b, .a]).calm = true ∧ (walking (quiet (walkerRead .walkerManifest 69)) [.b, .a]).mu.walker.candidates = .b :: .a :: []
      ∧ ((walking (quiet (walkerRead .walkerManifest 69)) [.b, .a]).fillBuffer ((walking (quiet (walkerRead .walkerManifest 69)) [.b, .a]).arriving { req := walkerRead .walkerManifest 69, delivered := 0, retryUsed := false, step := 0 } manifestBytes)).candidateCheck
          (manifestOfBytes ((walking (quiet (walkerRead .walkerManifest 69)) [.b, .a]).fillBuffer ((walking (quiet (walkerRead .walkerManifest 69)) [.b, .a]).arriving { req := walkerRead .walkerManifest 69, delivered := 0, retryUsed := false, step := 0 } manifestBytes)).mu.buffer)
          1 .b (some .first) = .slotMismatch := by decide

theorem witness_CandidateChecked_last :
    (walking (quiet (walkerRead .walkerManifest 69)) [.b]).calm = true ∧ (walking (quiet (walkerRead .walkerManifest 69)) [.b]).mu.walker.candidates = .b :: []
      ∧ ((walking (quiet (walkerRead .walkerManifest 69)) [.b]).fillBuffer ((walking (quiet (walkerRead .walkerManifest 69)) [.b]).arriving { req := walkerRead .walkerManifest 69, delivered := 0, retryUsed := false, step := 0 } manifestBytes)).candidateCheck
          (manifestOfBytes ((walking (quiet (walkerRead .walkerManifest 69)) [.b]).fillBuffer ((walking (quiet (walkerRead .walkerManifest 69)) [.b]).arriving { req := walkerRead .walkerManifest 69, delivered := 0, retryUsed := false, step := 0 } manifestBytes)).mu.buffer)
          1 .b (some .first) ≠ .none
      ∧ (∀ e ∈ (walking (quiet (walkerRead .walkerManifest 69)) [.b]).mu.tagQueue, e.1 ≠ 1) := by decide

/-- A key job of the walker. -/
def walkerJob : KeyJob :=
  { source := .walker, rootIndex := 0, certDigest := 0, certSignature := [], subordinateKey := [], manifestDigest := 0,
    signature := [], dropped := false }

/-- The key engine at work on the walker's job, the manifest buffer holding a manifest. -/
def signing (ph : SigPhase) (reRead : Bool) : State :=
  { (walking base [.a]) with
    ke := { queue := [], current := some (walkerJob, ph) }
    mu := { (walking base [.a]).mu with
      walker := { (walking base [.a]).mu.walker with phase := .sign, reRead := reRead }, buffer := manifestBytes } }

theorem witness_CertSigcheckDecides_first :
    (signing .certificate false).ke.current = some (walkerJob, .certificate) ∧ (signing .certificate false).ke.queue = [] ∧ walkerJob.dropped = false
      ∧ walkerJob.source = .walker ∧ (signing .certificate false).mu.walker.entry = some (1, .first) ∧ (signing .certificate false).mu.walker.candidates = .a :: []
      ∧ (∀ e ∈ (signing .certificate false).mu.tagQueue, e.1 ≠ 1) ∧ (signing .certificate false).mu.walker.reRead = false
      ∧ ((signing .certificate false).image 1).owner = some 1 ∧ (((signing .certificate false).modLife 1 (fun l => { l with state := .held })).life 1).bootTag = some 1 := by decide

theorem witness_CertSigcheckDecides_second :
    (signing .certificate true).ke.current = some (walkerJob, .certificate) ∧ (signing .certificate true).ke.queue = [] ∧ walkerJob.dropped = false
      ∧ walkerJob.source = .walker ∧ (signing .certificate true).mu.walker.entry = some (1, .first) ∧ (signing .certificate true).mu.walker.candidates = .a :: []
      ∧ (∀ e ∈ (signing .certificate true).mu.tagQueue, e.1 ≠ 1) ∧ (signing .certificate true).mu.walker.reRead = true
      ∧ ((signing .certificate true).image 1).owner = some 1 ∧ (((signing .certificate true).modLife 1 (fun l => { l with state := .held })).life 1).bootTag = some 1 := by decide

theorem witness_ManifestSigcheckDecides_first :
    (signing .manifest false).ke.current = some (walkerJob, .manifest) ∧ (signing .manifest false).ke.queue = [] ∧ walkerJob.dropped = false
      ∧ walkerJob.source = .walker ∧ (signing .manifest false).mu.walker.entry = some (1, .first) ∧ (signing .manifest false).mu.walker.candidates = .a :: []
      ∧ (∀ e ∈ (signing .manifest false).mu.tagQueue, e.1 ≠ 1) ∧ (signing .manifest false).mu.walker.reRead = false
      ∧ ((signing .manifest false).image 1).owner = some 1 ∧ (((signing .manifest false).modLife 1 (fun l => { l with state := .held })).life 1).bootTag = some 1 := by decide

theorem witness_ManifestSigcheckDecides_second :
    (signing .manifest true).ke.current = some (walkerJob, .manifest) ∧ (signing .manifest true).ke.queue = [] ∧ walkerJob.dropped = false
      ∧ walkerJob.source = .walker ∧ (signing .manifest true).mu.walker.entry = some (1, .first) ∧ (signing .manifest true).mu.walker.candidates = .a :: []
      ∧ (∀ e ∈ (signing .manifest true).mu.tagQueue, e.1 ≠ 1) ∧ (signing .manifest true).mu.walker.reRead = true
      ∧ ((signing .manifest true).image 1).owner = some 1 ∧ (((signing .manifest true).modLife 1 (fun l => { l with state := .held })).life 1).bootTag = some 1 := by decide

/-- CertSigcheckDecides and ManifestSigcheckDecides, a second failure with slot B behind; the flash free, or with a READ. -/
theorem witness_SigcheckDecides_further (ph : SigPhase) (r : FlashRequest) :
    (signing ph true).fc.port = .idle ∧ (signing ph true).fc.erase = .none ∧ (signing ph true).fc.noneWaiting = true
      ∧ ((signing ph true).modWalker (fun w => { w with candidates := [.a, .b] })).mu.walker.candidates = .a :: .b :: []
      ∧ ((signing ph true).modWalker (fun w => { w with candidates := [.a, .b] })).mu.walker.reRead = true
      ∧ ({ signing ph true with fc := (running r).fc } : State).fc.port ≠ .idle :=
  ⟨rfl, rfl, rfl, rfl, rfl, nofun⟩

/-- ManifestSigcheckDecides, the range: of a first entry without one; of a recheck that fits its range, or is longer. -/
theorem witness_ManifestSigcheckDecides_range :
    (manifestOfBytes manifestBytes).pageCount = 10
      ∧ (((signing .manifest false).modImage 1 (fun w => { w with range := none })).image 1).range = none
      ∧ ((signing .manifest false).image 1).range = some { start := 10, length := 10 }
      ∧ ((signing .manifest false).modWalker (fun w => { w with entry := some (1, .recheck) })).mu.walker.entry
          = some (1, .recheck)
      ∧ (((signing .manifest false).modImage 1 (fun w => { w with range := some { start := 10, length := 9 } })).image 1).range
          = some { start := 10, length := 9 } := by decide

/-- The manifest SIGCHECK of tag 1 for a HELD port 1. -/
def bootVerdict : State := (signing .manifest false).modLife 1 (fun l => { l with state := .held })

/-- BootSetHandedOver, the verdict of tag 1's manifest, boot set 4, for a HELD port 1. The pass of SIGCHECK is a free value. -/
theorem witness_BootSetHandedOver_verdict :
    bootVerdict.ke.current = some (walkerJob, .manifest) ∧ bootVerdict.ke.queue = []
      ∧ bootVerdict.mu.walker.entry = some (1, .first) ∧ bootVerdict.mu.walker.candidates = .a :: []
      ∧ bootVerdict.mu.tagQueue = [] ∧ (bootVerdict.image 1).owner = some 1 ∧ (bootVerdict.life 1).state = .held
      ∧ (bootVerdict.life 1).bootTag = some 1 ∧ 1 ≤ (manifestOfBytes bootVerdict.mu.buffer).bootSet
      ∧ (manifestOfBytes bootVerdict.mu.buffer).bootSet ≤ (manifestOfBytes bootVerdict.mu.buffer).pageCount
      ∧ (∀ g, g ≠ 1 → (bootVerdict.image g).owner = some 1 → (bootVerdict.image g).checkBeforeRelease = true →
          (bootVerdict.image g).state ≠ .rejected ∧ (bootVerdict.image g).state ≠ .failed)
      ∧ bootVerdict.pb.prefetch = [] ∧ (∀ i, bootVerdict.record (.image 1) i = none ∧ bootVerdict.present 1 i = none)
      ∧ (∀ q, bootVerdict.serving q ≠ some (.stallChecking 1)) ∧ bootVerdict.recordCount .prefetch = 0 :=
  ⟨rfl, rfl, rfl, rfl, rfl, rfl, rfl, rfl, by decide, by decide, by decide, rfl, fun _ => ⟨rfl, rfl⟩, by decide, rfl⟩

/-- A PREFETCH port 1 with page 0 of its boot set in the prefetch list, and these records. -/
def listed (l : List FillRecord) : State :=
  { (prefetching []) with pb := { base.pb with prefetch := [(1, 1, 0)], records := l } }

/-- BootSetHandedOver, a page of the set: present, BAD, or neither; and an entry of the list: behind 8 PREFETCH records, for
a present page, a BAD one, and one with a DEMAND or a SWEEP record or without one. -/
theorem witness_BootSetHandedOver_list :
    (holding base 0 none false).present 1 0 = some 3 ∧ (base.setPageState 1 0 .bad).pageState 1 0 = .bad
      ∧ base.present 1 0 = none ∧ base.pageState 1 0 ≠ .bad ∧ (listed []).pb.prefetch = [(1, 1, 0)]
      ∧ (listed (List.replicate 8 (absentPage .prefetch))).recordCount .prefetch = 8 ∧ (listed []).recordCount .prefetch = 0
      ∧ (holding (listed []) 0 none false).present 1 0 = some 3 ∧ (holding (listed []) 0 none false).pb.prefetch = [(1, 1, 0)]
      ∧ ((holding (listed []) 0 none false).life 1).state = .prefetch ∧ 0 ∉ ((listed []).life 1).heldPages
      ∧ ((listed []).life 1).bootSet ≠ some (((listed []).life 1).heldPages.length + 1)
      ∧ (∀ g, ((listed []).image g).owner = some 1 → ((listed []).image g).checkBeforeRelease = false)
      ∧ (listed []).present 1 0 = none ∧ (listed []).pageState 1 0 ≠ .bad
      ∧ ((listed []).setPageState 1 0 .bad).pageState 1 0 = .bad
      ∧ (listed [absentPage .demand]).record (.image 1) 0 = some (absentPage .demand)
      ∧ (listed [absentPage .sweep]).record (.image 1) 0 = some (absentPage .sweep) ∧ (absentPage .sweep).dest = .scratch
      ∧ (listed []).record (.image 1) 0 = none := by decide

/-- A seal check of S0, opened on slot A of tag 1, whose manifest is being read. -/
def sealReading : State :=
  { ((running (walkerRead .sealManifest 69)).modStaging 0 (fun _ => { openWindow with state := .sealing, slot := some .a })) with
    mu := { base.mu with holder := .sealCheck, sealCheck := some { SealCheck.forWindow 0 with phase := .read } } }

theorem witness_SealManifestChecked_passes :
    sealReading.fc.port = .op { req := walkerRead .sealManifest 69, delivered := 0, retryUsed := false, step := 0 }
      ∧ sealReading.mu.sealCheck = some { SealCheck.forWindow 0 with phase := .read } ∧ sealReading.noneDeferred = true
      ∧ (sealReading.fillBuffer (sealReading.arriving { req := walkerRead .sealManifest 69, delivered := 0, retryUsed := false, step := 0 } manifestBytes)).candidateCheck
          (manifestOfBytes (sealReading.fillBuffer (sealReading.arriving { req := walkerRead .sealManifest 69, delivered := 0, retryUsed := false, step := 0 } manifestBytes)).mu.buffer)
          (sealReading.staging 0).tag ((sealReading.staging 0).slot.getD .a) none = .none
      ∧ sealReading.ke.current = none ∧ sealReading.ke.queue = [] := by decide

theorem witness_SealManifestChecked_fails :
    (sealReading.fillBuffer (sealReading.arriving { req := walkerRead .sealManifest 69, delivered := 0, retryUsed := false, step := 0 } [])).candidateCheck
          (manifestOfBytes (sealReading.fillBuffer (sealReading.arriving { req := walkerRead .sealManifest 69, delivered := 0, retryUsed := false, step := 0 } [])).mu.buffer)
          (sealReading.staging 0).tag ((sealReading.staging 0).slot.getD .a) none ≠ .none := by decide

/-- The key engine at work on the job of a seal of S0, its manifest buffer free. -/
def sealKeyJob (dropped : Bool) : KeyJob := { walkerJob with source := .sealCheck 0, dropped := dropped }
def sealRecord (reRead cancelled : Bool) : SealCheck :=
  { SealCheck.forWindow 0 with phase := .sign, reRead := reRead, cancelled := cancelled, pageCount := 10, pageAreaOffset := 3 }
def sealSigning (ph : SigPhase) (dropped : Bool) (k : SealCheck) : State :=
  { (running (walkerRead .directory 2048)).modStaging 0 (fun _ => { openWindow with state := .sealing }) with
    ke := { queue := [], current := some (sealKeyJob dropped, ph) }
    mu := { base.mu with sealCheck := some k } }

/-- SealManifestChecked, the seal's key job: its two SIGCHECKs, first and second failures, the buffer free or held. -/
theorem witness_SealManifestChecked_job (ph : SigPhase) (reRead : Bool) :
    (sealSigning ph false (sealRecord reRead false)).ke.current = some (sealKeyJob false, ph)
      ∧ (sealSigning ph false (sealRecord reRead false)).ke.queue = [] ∧ (sealKeyJob false).source = .sealCheck 0
      ∧ (sealKeyJob false).dropped = false
      ∧ (sealSigning ph false (sealRecord reRead false)).mu.sealCheck = some (sealRecord reRead false)
      ∧ (sealRecord reRead false).win = 0 ∧ (sealRecord reRead false).reRead = reRead
      ∧ (sealSigning ph false (sealRecord reRead false)).mu.sealRequests = []
      ∧ (sealSigning ph false (sealRecord reRead false)).pb.prefetch = []
      ∧ (sealSigning ph false (sealRecord reRead false)).mu.holder = .none
      ∧ (sealSigning ph false (sealRecord reRead false)).mu.walker.phase ≠ .waitBuffer
      ∧ (sealSigning ph false (sealRecord reRead false)).fc.port ≠ .idle
      ∧ (sealSigning ph false (sealRecord reRead false)).fc.erase = .none
      ∧ (walking base [.a]).mu.holder ≠ .none :=
  ⟨rfl, rfl, rfl, rfl, rfl, rfl, rfl, rfl, rfl, rfl, nofun, nofun, rfl, nofun⟩

/-- SealManifestChecked, a dropped job: of a cancelled seal, and with a job that waits for it. -/
theorem witness_SealManifestChecked_dropped :
    (sealSigning .certificate true (sealRecord false true)).ke.current = some (sealKeyJob true, .certificate)
      ∧ (sealKeyJob true).dropped = true ∧ (sealRecord false true).cancelled = true
      ∧ (sealSigning .certificate true (sealRecord false true)).mu.sealCheck = some (sealRecord false true)
      ∧ ({ sealRecord false false with waitingJob := some (sealKeyJob false) } : SealCheck).waitingJob = some (sealKeyJob false)
      ∧ ({ sealRecord false false with waitingJob := some (sealKeyJob false) } : SealCheck).cancelled = false
      ∧ ((after .certSigcheckEnd (sealSigning .certificate true
            { sealRecord false false with waitingJob := some (sealKeyJob false) })).ke.current.map Prod.snd)
          = some .certificate := by decide

/-- A group READ of two bytes for entry 3, group 0 of window 1; the sweep has a record of window 2 in flight. -/
def groupRequest : FlashRequest := { purpose := .group 3, addr := 73728, len := 2, cls := .sweep, live := true }
def groupOp : CurrentOp := { req := groupRequest, delivered := 0, retryUsed := false, step := 0 }
def filling (digests : List Digest) (reRead : Bool) : State :=
  { ((running groupRequest).modImage 1 (fun w => { w with digests := digests })) with
    iu := { base.iu with cache := base.iu.cache.set 3 { CacheEntry.empty with
      state := .filling, key := some (.image 1, 0), claims := 1, reRead := reRead, cls := .sweep } }
    sw := { base.sw with inFlight := .record (.image 2) 0 } }

/-- GroupCompared, a match. -/
theorem witness_GroupCompared_match :
    (filling [Config.digest [5, 6]] false).fc.port = .op groupOp
      ∧ ((filling [Config.digest [5, 6]] false).entry 3).state = .filling
      ∧ ((filling [Config.digest [5, 6]] false).entry 3).key = some (.image 1, 0)
      ∧ (filling [Config.digest [5, 6]] false).noneDeferred = true
      ∧ (filling [Config.digest [5, 6]] false).heldDigest (.image 1, 0)
          = some (Config.digest ((filling [Config.digest [5, 6]] false).arriving groupOp [5, 6]))
      ∧ (filling [Config.digest [5, 6]] false).calm = true
      ∧ (filling [Config.digest [5, 6]] false).iu.waitGroup = []
      ∧ (filling [Config.digest [5, 6]] false).sw.inFlight = .record (.image 2) 0
      ∧ 0 < ((filling [Config.digest [5, 6]] false).entry 3).claims :=
  ⟨rfl, rfl, rfl, by decide, rfl, by decide, rfl, rfl, by decide⟩

/-- GroupCompared, a match with an idle sweep stream. -/
theorem witness_GroupCompared_match_idle :
    ({ filling [Config.digest [5, 6]] false with sw := base.sw } : State).heldDigest (.image 1, 0)
          = some (Config.digest (({ filling [Config.digest [5, 6]] false with sw := base.sw } : State).arriving groupOp [5, 6]))
      ∧ ({ filling [Config.digest [5, 6]] false with sw := base.sw } : State).sw.inFlight = .none
      ∧ ({ filling [Config.digest [5, 6]] false with sw := base.sw } : State).pb.prefetch = []
      ∧ ({ filling [Config.digest [5, 6]] false with sw := base.sw } : State).iu.waitGroup = []
      ∧ (({ filling [Config.digest [5, 6]] false with sw := base.sw } : State).entry 0).state = .free :=
  ⟨rfl, rfl, rfl, rfl, rfl⟩

/-- GroupCompared, a mismatch: a window that holds no digest for the group. -/
theorem witness_GroupCompared_mismatch (reRead : Bool) :
    (filling [] reRead).fc.port = .op groupOp ∧ ((filling [] reRead).entry 3).key = some (.image 1, 0)
      ∧ (filling [] reRead).heldDigest (.image 1, 0) ≠ some (Config.digest ((filling [] reRead).arriving groupOp [5, 6]))
      ∧ ((filling [] reRead).entry 3).reRead = reRead ∧ (filling [] reRead).calm = true
      ∧ (filling [] reRead).sw.inFlight ≠ .none
      ∧ ((filling [] reRead).image 1).state = .accepted
      ∧ ((filling [] reRead).image 1).range = some { start := 10, length := 10 } :=
  ⟨rfl, rfl, nofun, rfl, by cases reRead <;> decide, nofun, rfl, rfl⟩

/-- `filling` in a stream that waits for a group check, with a record of page 0 on the group that port 1 waits for. -/
def fillingFor (owner : PortId) : State :=
  { ((filling [] true).modImage 1 (fun w => { w with owner := some owner })).modPort 1
      (fun u => { u with frame := .responding, stream := some (stream 0 (.stallFill 1 0)) }) with
    pb := { base.pb with records := [{ absentPage .demand with state := .queued, sweepMade := false, waiters := [1], dest := .slot (some 5) }] }
    sw := { base.sw with inFlight := .groupCheck } }

/-- GroupCompared, the second mismatch: a record that claimed the entry and its waiter; under KEEP, or in a FAILED window; no
needs, and the stream busy with a group check. -/
theorem witness_GroupCompared_ends :
    (fillingFor 2).fc.port = .op groupOp ∧ ((fillingFor 2).entry 3).state = .filling
      ∧ ((fillingFor 2).entry 3).key = some (.image 1, 0) ∧ ((fillingFor 2).entry 3).reRead = true
      ∧ (fillingFor 2).noneDeferred = true ∧ (fillingFor 2).heldDigest (.image 1, 0) = none
      ∧ ((fillingFor 2).image 1).range = some { start := 10, length := 10 } ∧ 0 ∈ groupPages ((fillingFor 2).image 1).pageCount 0
      ∧ (fillingFor 2).record (.image 1) 0
          = some { absentPage .demand with state := .queued, sweepMade := false, waiters := [1], dest := .slot (some 5) }
      ∧ (∀ q, ((fillingFor 2).image 1).owner = some q →
          (fillingFor 2).onFailHold q = false ∧ ((fillingFor 2).life q).state ≠ .prefetch)
      ∧ (((fillingFor 1).modImage 1 (fun w => { w with state := .failed })).image 1).state = .failed
      ∧ ((fillingFor 2).port 1).stream = some (stream 0 (.stallFill 1 0)) ∧ (fillingFor 2).noNeeds
      ∧ (fillingFor 2).sw.inFlight = .groupCheck :=
  ⟨rfl, rfl, rfl, rfl, by decide, rfl, rfl, by decide, rfl, by decide, rfl, rfl,
    ⟨rfl, rfl, fun p t i => by fin_cases p <;> nofun⟩, rfl⟩

/-- A page READ of two bytes for a DEMAND record of window 1, page 0. -/
def pageRecord (reRead : Bool) (cls : OpClass) : FillRecord :=
  { win := .image 1, page := 0, cls := cls, origin := none, sweepMade := false, holdFor := none, waiters := [],
    state := .reading, reRead := reRead, dest := .slot (some 3), pageAddr := 77824, groupAddr := 73728 }
def pageRequest (cls : OpClass) : FlashRequest :=
  { purpose := .page (.image 1) 0, addr := 77824, len := 2, cls := cls, live := true }
def pageOp (cls : OpClass) : CurrentOp := { req := pageRequest cls, delivered := 0, retryUsed := false, step := 0 }
def readingPage (reRead : Bool) (cls : OpClass) (group : List Byte) : State :=
  { running (pageRequest cls) with
    pb := { base.pb with records := [pageRecord reRead cls] }
    iu := { base.iu with
      lane := some { start := [], now := [] }
      cache := base.iu.cache.set 3 { CacheEntry.empty with
        state := .valid, key := some (.image 1, 0), claims := 1, data := group } } }

/-- The group bytes that give page 0 the digest of these bytes. -/
def groupFor (data : List Byte) : List Byte := leBytes 32 (Config.digest data).toNat

theorem digestAt_leBytes (d : Digest) : digestAt (leBytes 32 d.toNat) 0 = d := by
  have hl : (leBytes 32 d.toNat).take 32 = leBytes 32 d.toNat := List.take_of_length_le (by simp)
  have hlt : d.toNat < 256 ^ 32 := d.isLt
  rw [digestAt, fieldAt, slice_zero, hl, leNat_leBytes, Nat.mod_eq_of_lt hlt, BitVec.ofNat_toNat, BitVec.setWidth_eq]

theorem digestAt_groupFor (data : List Byte) : digestAt (groupFor data) 0 = Config.digest data := digestAt_leBytes _

/-- PageCompared, a match. -/
theorem witness_PageCompared_match :
    (readingPage false .demand (groupFor [5, 6])).fc.port = .op (pageOp .demand)
      ∧ (readingPage false .demand (groupFor [5, 6])).record (.image 1) 0 = some (pageRecord false .demand)
      ∧ (readingPage false .demand (groupFor [5, 6])).iu.lane = some { start := [], now := [] }
      ∧ (readingPage false .demand (groupFor [5, 6])).noneDeferred = true
      ∧ ((readingPage false .demand (groupFor [5, 6])).image 1).state = .accepted
      ∧ ((readingPage false .demand (groupFor [5, 6])).image 1).range = some { start := 10, length := 10 }
      ∧ (readingPage false .demand (groupFor [5, 6])).pageState 1 0 = .unchecked
      ∧ (readingPage false .demand (groupFor [5, 6])).pageDigest (pageRecord false .demand)
          = some (Config.digest ([] ++ (readingPage false .demand (groupFor [5, 6])).arriving (pageOp .demand) [5, 6])) := by
  refine ⟨rfl, rfl, rfl, by decide, rfl, rfl, rfl, ?_⟩
  exact congrArg some (digestAt_groupFor [5, 6])

/-- PageCompared, a mismatch: the group entry is not held. -/
theorem witness_PageCompared_mismatch (reRead : Bool) :
    ({ (readingPage reRead .demand []) with iu := { base.iu with lane := some { start := [], now := [] } } } : State).pageDigest
        (pageRecord reRead .demand) ≠ some (Config.digest ([] ++
          ({ (readingPage reRead .demand []) with iu := { base.iu with lane := some { start := [], now := [] } } } : State).arriving
            (pageOp .demand) [5, 6]))
      ∧ (pageRecord reRead .demand).reRead = reRead :=
  ⟨nofun, rfl⟩

/-- PageCompared: the page GOOD already; the window FAILED; the owner CONFIRMED or RUNNING, with on-fail HOLD or KEEP. -/
theorem witness_PageCompared_cases (data : List Byte) :
    ((readingPage false .demand data).setPageState 1 0 .good).pageState 1 0 = .good
      ∧ (((readingPage false .demand data).modImage 1 (fun w => { w with state := .failed })).image 1).state = .failed
      ∧ ((readingPage false .demand data).image 1).owner = some 1 ∧ ((readingPage false .demand data).life 1).state = .confirmed
      ∧ (readingPage false .demand data).onFailHold 1 = true ∧ (readingPage false .demand data).onFailHold 2 = false
      ∧ (readingPage false .demand data).pb.prefetch = [] :=
  ⟨rfl, rfl, rfl, rfl, rfl, rfl, rfl⟩

/-- The page READ of page 0 of window 1 for this record, whose group gives these bytes; the stream is busy and port 1 waits
for the page. -/
def pageFor (r : FillRecord) (group : List Byte) : State :=
  { (readingPage false .demand group).modPort 1
      (fun u => { u with frame := .responding, stream := some (stream 0 (.stallFill 1 0)) }) with
    pb := { base.pb with records := [r] }
    sw := { base.sw with inFlight := .record (.image 2) 0 } }

theorem pageFor_noNeeds (r : FillRecord) (group : List Byte) : (pageFor r group).noNeeds :=
  ⟨rfl, rfl, fun p t i => by fin_cases p <;> nofun⟩

/-- PageCompared, the delivery: to the record's own slot or one acquired for scratch content, with a waiter, held for a
PREFETCH port, or neither. -/
theorem witness_PageCompared_delivered :
    (pageFor { pageRecord false .demand with waiters := [1] } (groupFor [5, 6])).fc.port = .op (pageOp .demand)
      ∧ (pageFor { pageRecord false .demand with waiters := [1] } (groupFor [5, 6])).record (.image 1) 0
          = some { pageRecord false .demand with waiters := [1] }
      ∧ (pageFor { pageRecord false .demand with waiters := [1] } (groupFor [5, 6])).pageDigest
            { pageRecord false .demand with waiters := [1] }
          = some (Config.digest ([] ++ (pageFor { pageRecord false .demand with waiters := [1] } (groupFor [5, 6])).arriving
              (pageOp .demand) [5, 6]))
      ∧ (pageFor { pageRecord false .demand with waiters := [1] } (groupFor [5, 6])).noNeeds
      ∧ (∀ q g, ((pageFor { pageRecord false .demand with waiters := [1] } []).life q).state = .prefetch →
          ((pageFor { pageRecord false .demand with waiters := [1] } []).image g).owner = some q →
          ((pageFor { pageRecord false .demand with waiters := [1] } []).image g).checkBeforeRelease = false)
      ∧ (pageFor { pageRecord false .demand with waiters := [1] } (groupFor [5, 6])).entryOf (.image 1, 0) = some 3
      ∧ (pageFor { pageRecord false .demand with waiters := [1] } (groupFor [5, 6])).sw.inFlight ≠ .none
      ∧ (pageRecord false .demand).sweepMade = false ∧ (pageRecord false .demand).dest = .slot (some 3)
      ∧ (pageFor { pageRecord false .demand with dest := .scratchThenSlot } (groupFor [5, 6])).acquirable = some 0
      ∧ ((pageFor { pageRecord false .demand with waiters := [1] } (groupFor [5, 6])).port 1).stream
          = some (stream 0 (.stallFill 1 0))
      ∧ (((pageFor { pageRecord false .demand with holdFor := some 1 } (groupFor [5, 6])).modLife 1 (fun l =>
            { l with state := .prefetch, bootSet := some 2 })).life 1).state = .prefetch
      ∧ (((pageFor { pageRecord false .demand with holdFor := some 1 } (groupFor [5, 6])).modLife 1 (fun l =>
            { l with state := .prefetch, bootSet := some 2 })).life 1).bootSet ≠ some 1
      ∧ (pageRecord false .demand).waiters = [] ∧ (pageRecord false .demand).holdFor = none
      ∧ (pageFor (pageRecord false .demand) (groupFor [5, 6])).fc.noneWaiting = true :=
  ⟨rfl, rfl, congrArg some (digestAt_groupFor [5, 6]), pageFor_noNeeds _ _, by decide, rfl, nofun, rfl, rfl, rfl, rfl, rfl,
    nofun, rfl, rfl, rfl⟩

/-- The group bytes that give page 0 another digest than that of these bytes. -/
def groupAgainst (data : List Byte) : List Byte := leBytes 32 (Config.digest data + 1).toNat

theorem digestAt_groupAgainst (data : List Byte) : digestAt (groupAgainst data) 0 ≠ Config.digest data := by
  rw [groupAgainst, digestAt_leBytes]
  exact fun h => absurd (BitVec.add_right_eq_self.mp h) (by decide)

/-- PageCompared, the second mismatch with a waiter: in a FAILED window, and in one whose owner's on-fail action is KEEP. -/
theorem witness_PageCompared_withheld (r : FillRecord) (hr : r = { pageRecord true .demand with waiters := [1] }) :
    (pageFor r (groupAgainst [5, 6])).record (.image 1) 0 = some r ∧ r.reRead = true
      ∧ (pageFor r (groupAgainst [5, 6])).pageDigest r
          ≠ some (Config.digest ([] ++ (pageFor r (groupAgainst [5, 6])).arriving (pageOp .demand) [5, 6]))
      ∧ (((pageFor r (groupAgainst [5, 6])).modImage 1 (fun w => { w with state := .failed })).image 1).state = .failed
      ∧ (∀ q, (((pageFor r (groupAgainst [5, 6])).modImage 1 (fun w => { w with owner := some 2 })).image 1).owner = some q →
          (pageFor r (groupAgainst [5, 6])).onFailHold q = false ∧ ((pageFor r (groupAgainst [5, 6])).life q).state ≠ .prefetch)
      ∧ ((pageFor r (groupAgainst [5, 6])).port 1).stream = some (stream 0 (.stallFill 1 0))
      ∧ (stream 0 (.stallFill 1 0)).reportedWithheld = false ∧ (pageFor r (groupAgainst [5, 6])).present 1 0 = none
      ∧ (pageFor r (groupAgainst [5, 6])).entryOf (.image 1, 0) = some 3 ∧ r.holdFor = none ∧ r.sweepMade = false
      ∧ ((pageFor { r with holdFor := some 1 } []).modLife 1 (fun l => { l with state := .prefetch })).record (.image 1) 0
          = some { r with holdFor := some 1 } := by
  subst hr
  refine ⟨rfl, rfl, fun h => digestAt_groupAgainst [5, 6] (Option.some.inj h), rfl, ?_, rfl, rfl, rfl, rfl, rfl, rfl, rfl⟩
  intro q hq
  cases hq
  exact ⟨rfl, nofun⟩

/-- PortReleased, the page READ that completes the boot set of port 1. -/
def lastBootPage : State :=
  { (prefetching [1]) with
    fc := { base.fc with port := .op (pageOp .prefetch) }
    pb := { base.pb with records := [{ pageRecord false .prefetch with holdFor := some 1 }] }
    iu := (readingPage false .prefetch (groupFor [5, 6])).iu }

theorem witness_PortReleased_page :
    lastBootPage.fc.port = .op (pageOp .prefetch)
      ∧ lastBootPage.record (.image 1) 0 = some { pageRecord false .prefetch with holdFor := some 1 }
      ∧ lastBootPage.iu.lane = some { start := [], now := [] }
      ∧ lastBootPage.noneDeferred = true ∧ lastBootPage.pb.prefetch = [] ∧ lastBootPage.loaded = true
      ∧ (lastBootPage.life 1).state = .prefetch ∧ (lastBootPage.life 1).bootSet = some 2
      ∧ (lastBootPage.life 1).bootTag = some 1 ∧ (lastBootPage.image 1).owner = some 1
      ∧ (lastBootPage.portConfig 1).isSome = true ∧ 0 ∉ (lastBootPage.life 1).heldPages
      ∧ (lastBootPage.life 1).heldPages.length + 1 = 2 ∧ (∀ j, j < 2 → lastBootPage.pageState 1 j ≠ .bad)
      ∧ (∀ g, (lastBootPage.image g).owner = some 1 →
          (lastBootPage.image g).checkBeforeRelease = false ∧ (lastBootPage.image g).state ≠ .failed)
      ∧ lastBootPage.pageDigest { pageRecord false .prefetch with holdFor := some 1 }
          = some (Config.digest ([] ++ lastBootPage.arriving (pageOp .prefetch) [5, 6])) :=
  ⟨rfl, rfl, rfl, by decide, rfl, rfl, rfl, rfl, rfl, rfl, rfl, by decide, rfl, by decide, by decide,
    congrArg some (digestAt_groupFor [5, 6])⟩

/-! ### The sweep -/

/-- A dead page READ, whose data is discarded, in a part whose stream is idle. -/
def deadRead : State := running { pageRequest .sweep with live := false }

/-- The job of a seal of S0 at page 0 of group 0. -/
def sealJob (claim : Bool) (pages : Nat) : SealJob :=
  { handover := { win := 0, pageCount := pages, pageAreaOffset := 3 }, group := 0, nextPage := 0, claim := claim }

/-- A part without image windows to sweep, S0 SEALING in the stream, with a READ of this request on the flash port. -/
def sealSweeping (r : FlashRequest) (claim : Bool) (pages : Nat) (f : InFlight) : State :=
  { ((quiet r).modStaging 0 (fun _ => { openWindow with state := .sealing })) with
    sw := { target := some (.staging 0), inFlight := f, sealQueue := [(sealJob claim pages).handover],
            job := some (sealJob claim pages) } }

/-- `sealSweeping` with the entry of group 0 in this state. -/
def sealEntry (st : EntryState) (s : State) (group : List Byte) (reRead : Bool) : State :=
  { s with iu := { base.iu with
      lane := some { start := [], now := [] }
      cache := base.iu.cache.set 3 { CacheEntry.empty with
        state := st, key := some (.staging 0, 0), claims := 2, data := group, reRead := reRead, cls := .sweep } } }

theorem quiet_rank (s : State) (h : s.wu.image = Vector.replicate 8 ImageWindow.unused) (t : Tag) : s.sweepRank t = 4 := by
  have hi : s.image t = ImageWindow.unused := by simp [State.image, h]
  simp [State.sweepRank, State.inTier1, State.inTier2, State.inTier3, hi, ImageWindow.unused]

theorem quiet_noSweepWork (s : State) (h : s.wu.image = Vector.replicate 8 ImageWindow.unused) : s.noSweepWork :=
  fun t _ hr => absurd hr (by simp [quiet_rank s h t])

theorem base_tiers : ∀ t' : Tag, base.sweepRank t' ≤ 3 →
    base.sweepRank 1 < base.sweepRank t' ∨ (base.sweepRank 1 = base.sweepRank t' ∧ 1 ≤ t') := by decide

/-- SweepPicksByTier, a page of tier 2 before the pages of tier 3; the step that makes the pick. -/
theorem witness_SweepPicksByTier_image :
    base.sw.inFlight = .none ∧ GroupWaiter.sealCheck ∉ base.iu.waitGroup ∧ base.sweepRank 1 = 2 ∧ base.sweepOpen 1 0
      ∧ (∀ j, base.sweepOpen 1 j → (base.image 1).lapPlace 0 ≤ (base.image 1).lapPlace j)
      ∧ (∀ t' j, base.sweepRank t' ≤ 3 → base.sweepOpen t' j →
          base.sweepRank 1 < base.sweepRank t' ∨ (base.sweepRank 1 = base.sweepRank t' ∧ 1 ≤ t'))
      ∧ deadRead.fc.port = .op { req := { pageRequest .sweep with live := false }, delivered := 0, retryUsed := false, step := 0 }
      ∧ deadRead.pb.prefetch = [] ∧ deadRead.noneDeferred = true :=
  ⟨rfl, by decide, by decide, ⟨by decide, by decide, by decide, by decide⟩, fun _ _ => Nat.zero_le _,
    fun t' _ hr _ => base_tiers t' hr, rfl, rfl, by decide⟩

/-- SweepPicksByTier, the seal job: with its claim; its group VALID, FILLING or in no entry; and no work at all. -/
theorem witness_SweepPicksByTier_seal (claim : Bool) :
    (sealSweeping (walkerRead .directory 2048) claim 10 .none).noSweepWork
      ∧ (sealSweeping (walkerRead .directory 2048) claim 10 .none).sw.job = some (sealJob claim 10)
      ∧ ((sealSweeping (walkerRead .directory 2048) claim 10 .none).staging 0).state = .sealing
      ∧ (sealSweeping (walkerRead .directory 2048) claim 10 .none).record (.staging 0) 0 = none
      ∧ (sealEntry .valid (sealSweeping (walkerRead .directory 2048) claim 10 .none) [] false).entryOf (.staging 0, 0) = some 3
      ∧ (sealEntry .filling (sealSweeping (walkerRead .directory 2048) claim 10 .none) [] false).entryOf (.staging 0, 0) = some 3
      ∧ (sealSweeping (walkerRead .directory 2048) claim 10 .none).entryOf (.staging 0, 0) = none
      ∧ (sealSweeping (walkerRead .directory 2048) claim 10 .none).entryToFill = some 0
      ∧ (sealSweeping (walkerRead .directory 2048) claim 10 .none).fc.port ≠ .idle
      ∧ (sealSweeping (walkerRead .directory 2048) claim 10 .none).fc.erase = .none
      ∧ ({ base with iu := { base.iu with cache := Vector.replicate 8 { CacheEntry.empty with state := .dropped } } } : State).entryToFill = none
      ∧ (quiet (walkerRead .directory 2048)).noSweepWork ∧ (quiet (walkerRead .directory 2048)).sw.job = none :=
  ⟨quiet_noSweepWork _ rfl, rfl, rfl, rfl, rfl, rfl, rfl, rfl, nofun, rfl, rfl, quiet_noSweepWork _ rfl, rfl⟩

/-- The page READ of page 0 of a seal of `pages` pages, its group holding this. -/
def sealPageRequest : FlashRequest := { pageRequest .sweep with purpose := .page (.staging 0) 0 }
def sealPageRecord (reRead : Bool) : FillRecord :=
  { pageRecord reRead .sweep with win := .staging 0, sweepMade := true, dest := .scratch }
def sealPageReading (reRead : Bool) (pages : Nat) (group : List Byte) : State :=
  { sealEntry .valid (sealSweeping sealPageRequest true pages (.record (.staging 0) 0)) group false with
    pb := { base.pb with records := [sealPageRecord reRead] } }

/-- SealChecksInStream, a page of a seal: not the last one or the last one, first or second reading. -/
theorem witness_SealChecksInStream_page (reRead : Bool) (pages : Nat) (group : List Byte) :
    (sealPageReading reRead pages group).fc.port = .op { req := sealPageRequest, delivered := 0, retryUsed := false, step := 0 }
      ∧ (sealPageReading reRead pages group).record (.staging 0) 0 = some (sealPageRecord reRead)
      ∧ (sealPageReading reRead pages group).iu.lane = some { start := [], now := [] }
      ∧ (sealPageReading reRead pages group).noneDeferred = true ∧ (sealPageReading reRead pages group).pb.prefetch = []
      ∧ (sealPageRecord reRead).sweepMade = true
      ∧ (sealPageReading reRead pages group).sw.inFlight = .record (.staging 0) 0
      ∧ GroupWaiter.sealCheck ∉ (sealPageReading reRead pages group).iu.waitGroup
      ∧ (sealPageReading reRead pages group).sw.job = some (sealJob true pages) ∧ (sealJob true pages).nextPage = 0
      ∧ (sealPageReading reRead pages group).sw.sealQueue = (sealJob true pages).handover :: []
      ∧ (sealJob true 1).handover.pageCount = 0 + 1 ∧ 0 + 1 ≠ (sealJob true 10).handover.pageCount
      ∧ (sealPageReading reRead pages (groupFor [5, 6])).pageDigest (sealPageRecord reRead)
          = some (Config.digest ([] ++ (sealPageReading reRead pages (groupFor [5, 6])).arriving
              { req := sealPageRequest, delivered := 0, retryUsed := false, step := 0 } [5, 6]))
      ∧ ({ (sealPageReading reRead pages group) with iu := { base.iu with lane := some { start := [], now := [] } } } : State).pageDigest
          (sealPageRecord reRead) = none :=
  ⟨rfl, rfl, rfl, rfl, rfl, rfl, rfl, List.not_mem_nil, rfl, rfl, rfl, rfl, by decide,
    by cases reRead <;> exact congrArg some (digestAt_groupFor [5, 6]), rfl⟩

/-- SealChecksInStream, the group check of a seal whose store holds these digests. -/
def sealGroupReading (digests : List Digest) (reRead : Bool) : State :=
  (sealEntry .filling (sealSweeping groupRequest false 10 .groupCheck) [] reRead).modStaging 0
    (fun w => { w with digests := digests })

theorem witness_SealChecksInStream_group (digests : List Digest) (reRead : Bool) :
    (sealGroupReading digests reRead).fc.port = .op groupOp ∧ ((sealGroupReading digests reRead).entry 3).state = .filling
      ∧ ((sealGroupReading digests reRead).entry 3).key = some (.staging 0, 0)
      ∧ (sealGroupReading digests reRead).noneDeferred = true ∧ (sealGroupReading digests reRead).pb.prefetch = []
      ∧ (sealGroupReading digests reRead).sw.inFlight = .groupCheck
      ∧ GroupWaiter.sealCheck ∉ (sealGroupReading digests reRead).iu.waitGroup
      ∧ (sealGroupReading digests reRead).sw.job = some (sealJob false 10)
      ∧ (sealGroupReading digests reRead).sw.sealQueue = (sealJob false 10).handover :: []
      ∧ (sealGroupReading digests reRead).claimants (.staging 0, 0) = []
      ∧ (∀ t, (sealGroupReading digests reRead).sweepRank t = 4)
      ∧ ((sealGroupReading digests reRead).staging 0).state = .sealing
      ∧ (sealGroupReading digests reRead).record (.staging 0) 0 = none
      ∧ (sealGroupReading [Config.digest [5, 6]] reRead).heldDigest (.staging 0, 0)
          = some (Config.digest ((sealGroupReading [Config.digest [5, 6]] reRead).arriving groupOp [5, 6]))
      ∧ (sealGroupReading [] reRead).heldDigest (.staging 0, 0) = none
      ∧ ((sealGroupReading digests reRead).entry 3).reRead = reRead :=
  ⟨rfl, rfl, rfl, rfl, rfl, rfl, List.not_mem_nil, rfl, rfl, rfl,
    quiet_rank _ rfl, rfl, rfl, rfl, rfl, rfl⟩

/-- StageCloseFreesWindow, a SEALING window: its manifest being read; its key job in the engine, or queued behind another. -/
theorem witness_StageCloseFreesWindow_check :
    sealReading.formatterReady 0 = true ∧ (sealReading.staging 0).state = .sealing
      ∧ sealReading.mu.sealCheck.map (fun k => (k.win, k.cancelled, k.phase)) = some (0, false, .read)
      ∧ (walkerRead .sealManifest 69).purpose = .sealManifest
      ∧ (sealSigning .certificate false (sealRecord false false)).formatterReady 0 = true
      ∧ ((sealSigning .certificate false (sealRecord false false)).staging 0).state = .sealing
      ∧ (sealRecord false false).phase = .sign ∧ (sealRecord false false).waitingJob = none
      ∧ (sealSigning .certificate false (sealRecord false false)).sealJobQueued 0 = false
      ∧ (sealSigning .certificate false (sealRecord false false)).ke.current = some (sealKeyJob false, .certificate)
      ∧ (sealKeyJob false).source = .sealCheck 0
      ∧ ({ sealSigning .certificate false (sealRecord false false) with
            ke := { queue := [sealKeyJob false], current := some (walkerJob, .certificate) } } : State).sealJobQueued 0 = true := by
  decide

/-- StageCloseFreesWindow, a SEALING window in the sweep stream: a page of it, or its group check, in flight; the job of the
other window. -/
theorem witness_StageCloseFreesWindow_job :
    (sealPageReading true 10 []).formatterReady 0 = true ∧ ((sealPageReading true 10 []).staging 0).state = .sealing
      ∧ (sealPageReading true 10 []).sw.job = some (sealJob true 10)
      ∧ (sealPageReading true 10 []).sw.sealQueue = (sealJob true 10).handover :: [] ∧ (sealJob true 10).handover.win = 0
      ∧ (sealPageReading true 10 []).sw.inFlight = .record (.staging 0) 0
      ∧ (sealPageReading true 10 []).record (.staging 0) 0 = some (sealPageRecord true)
      ∧ GroupWaiter.sealCheck ∉ (sealPageReading true 10 []).iu.waitGroup
      ∧ (sealGroupReading [] true).sw.inFlight = .groupCheck ∧ (sealGroupReading [] true).formatterReady 0 = true
      ∧ ((sealGroupReading [] true).staging 0).state = .sealing ∧ (sealGroupReading [] true).iu.waitGroup = []
      ∧ ((sealPageReading true 10 []).modStaging 1 (fun _ => { openWindow with state := .sealing })).formatterReady 0 = true
      ∧ (sealJob true 10).handover.win ≠ 1 := by decide

/-- A whole page READ of a SWEEP record at its first boundary, with other work waiting or not. -/
def sweepOp : CurrentOp :=
  { req := { pageRequest .sweep with len := 4096 }, delivered := 0, retryUsed := false, step := 0 }
def sweepReading (waiting : List FlashRequest) : State :=
  { readingPage false .sweep [] with
    fc := { base.fc with port := .op sweepOp, queues := { base.fc.queues with walker := waiting } } }

theorem witness_SweepParksAtBoundary :
    (sweepReading []).fc.port = .op sweepOp ∧ (sweepReading []).record (.image 1) 0 = some (pageRecord false .sweep)
      ∧ (sweepReading []).iu.lane = some { start := [], now := [] } ∧ 4096 - sweepOp.req.len + sweepOp.delivered + 512 = 512
      ∧ (sweepReading []).fc.erase = .none ∧ (sweepReading []).parkingWork = false
      ∧ (pageRecord false .sweep).cls = .sweep
      ∧ ((sweepReading [walkerRead .directory 2048]).fc.queues.pop [.demand, .prefetch, .walker, .staging]).map Prod.fst
          = some (walkerRead .directory 2048)
      ∧ (∀ v j, (walkerRead .directory 2048).purpose ≠ .page v j) :=
  ⟨rfl, rfl, rfl, rfl, rfl, rfl, rfl, rfl, nofun⟩

/-- SweepParksAtBoundary, the usual DEMAND case: a page READ of another record, READY, overtakes. -/
def overtaken : State :=
  { sweepReading [] with
    pb := { base.pb with records := [{ pageRecord false .sweep with dest := .scratch },
                                     { pageRecord false .demand with page := 1, state := .ready }] }
    fc := { (sweepReading []).fc with
      queues := { base.fc.queues with demand := [{ pageRequest .demand with purpose := .page (.image 1) 1 }] } } }

theorem witness_SweepParksAtBoundary_demand (q : FlashRequest)
    (hq : q = { pageRequest .demand with purpose := .page (.image 1) 1 }) :
    overtaken.fc.queues.pop [.demand, .prefetch, .walker, .staging] = some (q, base.fc.queues)
      ∧ q.purpose ≠ .page (.image 1) 0 ∧ q.live = true
      ∧ overtaken.record (.image 1) 0 = some { pageRecord false .sweep with dest := .scratch }
      ∧ overtaken.record (.image 1) 1 = some { pageRecord false .demand with page := 1, state := .ready }
      ∧ (pageRecord false .demand).dest ≠ .scratch ∧ (pageRecord false .demand).dest ≠ .scratchThenSlot := by
  subst hq
  decide

/-- A dead page READ on the flash port, with the page READ of a record without a slot waiting behind it. -/
def acquiring (s : State) : State :=
  { s with
    pb := { s.pb with records := [{ pageRecord false .demand with state := .ready, dest := .slot none }] }
    sw := { base.sw with inFlight := .groupCheck }
    fc := { deadRead.fc with queues := { base.fc.queues with demand := [pageRequest .demand] } } }

/-- BufferSlotsTakenAndServed: a slot that stays present; the acquisition of a FREE slot and of the LRU head at the start of
a page READ; the last pin of a slot that is discarded, that joins the LRU list, and that is held. -/
theorem witness_BufferSlotsTakenAndServed :
    (∃ t, exec (.status 1) (holding base 0 none false) = .next t ∧ (t.bufferSlot 3).state = .valid
        ∧ (t.bufferSlot 3).key = some (1, 0) ∧ (t.bufferSlot 3).discardPending = false ∧ t.loaded = true)
      ∧ (acquiring base).fc.port
          = .op { req := { pageRequest .sweep with live := false }, delivered := 0, retryUsed := false, step := 0 }
      ∧ (acquiring base).noneDeferred = true ∧ (acquiring base).pb.prefetch = [] ∧ (acquiring base).fc.erase = .none
      ∧ (acquiring base).fc.queues.pop allClasses = some (pageRequest .demand, base.fc.queues)
      ∧ (acquiring base).record (.image 1) 0 = some { pageRecord false .demand with state := .ready, dest := .slot none }
      ∧ ((acquiring base).bufferSlot 0).state = .free
      ∧ (∀ m : Fin 64, ((acquiring { base with pb := { base.pb with
            slots := Vector.replicate 64 { BufferSlot.empty with state := .valid }, lru := [7] } }).bufferSlot m).state ≠ .free)
      ∧ ((reading 1 (stream 0 (.slot 3))).port 1).stream = some (stream 0 (.slot 3))
      ∧ ((holding (reading 1 (stream 0 (.slot 3))) 1 none true).bufferSlot 3).pins = 1
      ∧ ((holding (reading 1 (stream 0 (.slot 3))) 1 none true).bufferSlot 3).discardPending = true
      ∧ ((holding (reading 1 (stream 0 (.slot 3))) 1 none false).bufferSlot 3).heldFor = none
      ∧ ((holding (reading 1 (stream 0 (.slot 3))) 1 (some 2) false).bufferSlot 3).heldFor.isSome = true :=
  ⟨⟨_, rfl, rfl, rfl, rfl, rfl⟩, rfl, by decide, rfl, rfl, rfl, rfl, rfl, by decide, rfl, rfl, rfl, rfl, rfl⟩

/-- A RAW READ of port 0. -/
def rawReading : State :=
  { reading 0 (stream 0 (.raw [1] false)) with
    fc := { base.fc with port := { (walkerRead (.raw 0) 8) with cls := .demand }.started 0 } }

theorem witness_FlashOpsComplete_raw :
    rawReading.fc.port = .op { req := { (walkerRead (.raw 0) 8) with cls := .demand }, delivered := 0, retryUsed := false, step := 0 }
      ∧ (rawReading.port 0).stream = some (stream 0 (.raw [1] false)) ∧ rawReading.pb.prefetch = []
      ∧ rawReading.noneDeferred = true := by decide

theorem witness_FlashOpsComplete_erase :
    (erasing (.erasing eraseRequest)).fc.erase = .erasing eraseRequest
      ∧ (erasing (.erasing eraseRequest)).fc.port = .op { req := eraseRequest, delivered := 0, retryUsed := false, step := 0 }
      ∧ eraseRequest.purpose = .erase 0 ∧ ((erasing (.erasing eraseRequest)).port 0).frame = .executing 0x12
      ∧ (erasing (.erasing eraseRequest)).noneDeferred = true ∧ (erasing (.erasing eraseRequest)).fc.noneWaiting = true := by decide

theorem witness_FlashOpsComplete_program :
    programming.fc.port = .op { req := programRequest, delivered := 0, retryUsed := false, step := 0 }
      ∧ programRequest.purpose = .program 0 [1, 2] ∧ (programming.port 0).frame = .executing 0x13
      ∧ programming.noneDeferred = true ∧ (Memory.read programming.flash 1114112).getLsbD 0 = true := by decide

/-- The erase being suspended, with this request waiting in the DEMAND queue. -/
def suspendingFor (r : FlashRequest) : State :=
  { erasing (.suspending eraseRequest) with
    fc := { (erasing (.suspending eraseRequest)).fc with queues := { base.fc.queues with demand := [r] } } }

theorem witness_SuspendAndTimeouts_suspend :
    (erasing (.suspending eraseRequest)).fc.erase = .suspending eraseRequest
      ∧ (erasing (.suspending eraseRequest)).fc.port = .op { req := eraseRequest, delivered := 0, retryUsed := false, step := 0 }
      ∧ (erasing (.suspending eraseRequest)).fc.queues.pop [.demand, .prefetch, .walker] = none
      ∧ (suspendingFor (walkerRead (.raw 1) 8)).fc.erase = .suspending eraseRequest
      ∧ ((suspendingFor (walkerRead (.raw 1) 8)).fc.queues.pop [.demand, .prefetch, .walker]).map Prod.fst
          = some (walkerRead (.raw 1) 8)
      ∧ (walkerRead (.raw 1) 8).purpose.isRead = true
      ∧ ((erasing (.suspending eraseRequest)).port 0).frame = .executing 0x12
      ∧ (erasing (.suspending eraseRequest)).noneDeferred = true := by decide

theorem witness_SuspendAndTimeouts_timeout :
    (running (walkerRead .directory 2048)).fc.port
        = .op { req := walkerRead .directory 2048, delivered := 0, retryUsed := false, step := 0 }
      ∧ (walkerRead .directory 2048).purpose.isRead = true ∧ (∀ q, (walkerRead .directory 2048).purpose ≠ .raw q)
      ∧ programming.fc.port = .op { req := programRequest, delivered := 0, retryUsed := false, step := 0 }
      ∧ (erasing (.erasing eraseRequest)).fc.erase = .erasing eraseRequest
      ∧ (erasing (.suspending eraseRequest)).fc.erase = .suspending eraseRequest := by decide

theorem witness_ResetEndsWithRetryOrFault :
    base.noneDeferred = true ∧ base.formatterPort = some 0
      ∧ ({ base with fc := FlashCtl.reset } : State).fc.port = .reset .first
      ∧ ({ base with fc := FlashCtl.reset } : State).fc.erase = .none
      ∧ ({ base with fc := FlashCtl.reset } : State).fc.noneWaiting = true
      ∧ (∀ q, (walkerRead .directory 2048).purpose ≠ .raw q)
      ∧ ({ programming with fc := { base.fc with port := .reset (.failProgram programRequest) } } : State).noneDeferred = true
      ∧ ({ programming with fc := { base.fc with port := .reset (.failProgram programRequest) } } : State).formatterPort = some 0
      ∧ (({ programming with fc := { base.fc with port := .reset (.failProgram programRequest) } } : State).port 0).frame = .executing 0x13
      ∧ ((erasing (.erasing eraseRequest)).port 0).frame = .executing 0x12
      ∧ (erasing (.erasing eraseRequest)).formatterPort = some 0
      ∧ ({ base with fc := { FlashCtl.reset with queues :=
            { FlashCtl.reset.queues with walker := [walkerRead .directory 2048] } } } : State).fc.queues.pop allClasses
          = some (walkerRead .directory 2048, FlashCtl.reset.queues)
      ∧ (∀ x, (walkerRead .directory 2048).purpose ≠ .erase x)
      ∧ ({ rawRunning 3 with fc := { base.fc with port := .reset (.retryRead (rawOp 3)) } } : State).fc.port
          = .reset (.retryRead (rawOp 3))
      ∧ (({ rawRunning 3 with fc := { base.fc with port := .reset (.retryRead (rawOp 3)) } } : State).port 0).stream
          = some (stream 0 (.raw [] false))
      ∧ (erasing (.suspended eraseRequest)).fc.erase = .suspended eraseRequest
      ∧ ((erasing (.suspended eraseRequest)).port 0).frame = .executing 0x12 := by decide

/-- The READ on the flash port of `s` has timed out twice. -/
def failing (s : State) (r : FlashRequest) : State :=
  { s with fc := { s.fc with port := .reset (.failRead { req := r, delivered := 0, retryUsed := true, step := 0 }) } }

/-- ReadFaultDelivered, a page READ of a window, with a waiter or for a PREFETCH port; and a group READ. -/
theorem witness_ReadFaultDelivered_image :
    (failing (pageFor { pageRecord false .demand with waiters := [1] } []) (pageRequest .demand)).fc.erase = .none
      ∧ (failing (pageFor { pageRecord false .demand with waiters := [1] } []) (pageRequest .demand)).noneDeferred = true
      ∧ (failing (pageFor { pageRecord false .demand with waiters := [1] } []) (pageRequest .demand)).record (.image 1) 0
          = some { pageRecord false .demand with waiters := [1] }
      ∧ (failing (pageFor { pageRecord false .demand with waiters := [1] } []) (pageRequest .demand)).noNeeds
      ∧ (failing (pageFor { pageRecord false .demand with waiters := [1] } []) (pageRequest .demand)).entryOf (.image 1, 0)
          = some 3
      ∧ ((failing (pageFor { pageRecord false .demand with waiters := [1] } []) (pageRequest .demand)).port 1).stream
          = some (stream 0 (.stallFill 1 0))
      ∧ (failing (pageFor { pageRecord false .demand with holdFor := some 1 } []) (pageRequest .demand)).present 1 0 = none
      ∧ (failing (pageFor { pageRecord false .demand with holdFor := some 1 } []) (pageRequest .demand)).pageState 1 0 ≠ .bad
      ∧ (failing (fillingFor 1) groupRequest).noneDeferred = true ∧ (failing (fillingFor 1) groupRequest).fc.erase = .none
      ∧ ((failing (fillingFor 1) groupRequest).entry 3).state = .filling
      ∧ ((failing (fillingFor 1) groupRequest).entry 3).key = some (.image 1, 0)
      ∧ (failing (fillingFor 1) groupRequest).noNeeds
      ∧ (∀ r ∈ (failing (fillingFor 1) groupRequest).pb.records, r.holdFor = none)
      ∧ (failing (fillingFor 1) groupRequest).sw.inFlight = .groupCheck
      ∧ ((failing (fillingFor 1) groupRequest).port 1).stream = some (stream 0 (.stallFill 1 0)) :=
  ⟨rfl, by decide, rfl, pageFor_noNeeds _ _, rfl, rfl, rfl, nofun, by decide, rfl, rfl, rfl,
    ⟨rfl, rfl, fun p t i => by fin_cases p <;> nofun⟩, by decide, rfl, rfl⟩

/-- ReadFaultDelivered, the page and the group READ of a seal. -/
theorem witness_ReadFaultDelivered_seal :
    (failing (sealPageReading false 10 []) sealPageRequest).fc.erase = .none
      ∧ (failing (sealPageReading false 10 []) sealPageRequest).noneDeferred = true
      ∧ (failing (sealPageReading false 10 []) sealPageRequest).record (.staging 0) 0 = some (sealPageRecord false)
      ∧ (sealPageRecord false).sweepMade = true
      ∧ (failing (sealPageReading false 10 []) sealPageRequest).sw.inFlight = .record (.staging 0) 0
      ∧ GroupWaiter.sealCheck ∉ (failing (sealPageReading false 10 []) sealPageRequest).iu.waitGroup
      ∧ (failing (sealPageReading false 10 []) sealPageRequest).pb.prefetch = []
      ∧ (failing (sealPageReading false 10 []) sealPageRequest).sw.job = some (sealJob true 10)
      ∧ (failing (sealPageReading false 10 []) sealPageRequest).sw.sealQueue = (sealJob true 10).handover :: []
      ∧ (sealJob true 10).handover.win = 0
      ∧ (failing (sealGroupReading [] true) groupRequest).noneDeferred = true
      ∧ ((failing (sealGroupReading [] true) groupRequest).entry 3).key = some (.staging 0, 0)
      ∧ (failing (sealGroupReading [] true) groupRequest).sw.inFlight = .groupCheck
      ∧ (failing (sealGroupReading [] true) groupRequest).sw.job = some (sealJob false 10)
      ∧ (failing (sealGroupReading [] true) groupRequest).claimants (.staging 0, 0) = [] := by decide

/-- ReadFaultDelivered, the READs of the walk and of the seal check, the directory READ and a RAW READ. -/
theorem witness_ReadFaultDelivered_walk :
    (failing (walking (quiet (walkerRead (.probe .a) 16)) []) (walkerRead (.probe .a) 16)).calm = true
      ∧ (failing (walking (quiet (walkerRead (.probe .a) 16)) []) (walkerRead (.probe .a) 16)).mu.walker.entry = some (1, .first)
      ∧ (failing (walking (quiet (walkerRead (.probe .b) 16)) []) (walkerRead (.probe .b) 16)).calm = true
      ∧ (failing (walking (quiet (walkerRead (.probe .b) 16)) []) (walkerRead (.probe .b) 16)).mu.walker.probeA.isSome = true
      ∧ ((failing (walking (quiet (walkerRead (.probe .b) 16)) []) (walkerRead (.probe .b) 16)).modWalker (fun w =>
            { w with probeA := none })).mu.walker.probeA = none
      ∧ (∀ e ∈ (walking (quiet (walkerRead (.probe .b) 16)) []).mu.tagQueue, e.1 ≠ 1)
      ∧ (failing (walking (quiet (walkerRead .walkerManifest 69)) [.b, .a]) (walkerRead .walkerManifest 69)).calm = true
      ∧ (failing (walking (quiet (walkerRead .walkerManifest 69)) [.b, .a]) (walkerRead .walkerManifest 69)).mu.walker.candidates
          = .b :: [.a]
      ∧ (failing (walking (quiet (walkerRead .walkerManifest 69)) [.b]) (walkerRead .walkerManifest 69)).mu.walker.candidates
          = .b :: []
      ∧ (failing sealReading (walkerRead .sealManifest 69)).mu.sealCheck = some { SealCheck.forWindow 0 with phase := .read }
      ∧ (failing sealReading (walkerRead .sealManifest 69)).noneDeferred = true
      ∧ (failing base (walkerRead .directory 2048)).noneDeferred = true
      ∧ (failing base (walkerRead .directory 2048)).fc.erase = .none
      ∧ ((failing (rawRunning 3) (rawOp 3).req).port 0).stream = some (stream 0 (.raw [] false))
      ∧ (failing (rawRunning 3) (rawOp 3).req).pb.prefetch = [] ∧ (rawOp 3).req.live = true := by decide

/-! ## Witnesses of the frames, the erase and the rows that a command or a restart leaves behind -/

/-- The flash carries the ERASE of port 0 in this erase state, `queues` waiting. -/
def underErase (s : State) (e : EraseState) : State :=
  { s with fc := { s.fc with port := eraseRequest.started 0, erase := e } }

/-- `s` with the waiting RAW READ of port 0 in its DEMAND queue. -/
def rawWaiting (s : State) : State :=
  { s with fc := { s.fc with queues := { s.fc.queues with demand := [(rawOp 0).req] } } }

/-- SelectReleaseEndsFrame, a RAW READ that waits behind another port's or behind a directory READ, and one that runs. -/
theorem witness_SelectReleaseEndsFrame_raw :
    ((rawRunning 3).port 0).frame = .responding ∧ ((rawRunning 3).port 0).stream = some (stream 0 (.raw [] false))
      ∧ (rawRunning 3).fc.port = .op (rawOp 3) ∧ (rawOp 3).req.purpose = .raw 0
      ∧ (rawWaiting (running (walkerRead .directory 2048))).fc.queues.get .demand = [(rawOp 0).req]
      ∧ (rawOp 0).req.live = true ∧ (walkerRead .directory 2048).purpose ≠ .raw 0 := by decide

/-- ReadTaken and AbsentPageNeeded, a READ taken while the flash carries an ERASE. -/
theorem witness_ReadTaken_erase :
    (inStaging (underErase staged (.erasing eraseRequest))).ready 0 = true
      ∧ (inStaging (underErase staged (.erasing eraseRequest))).windowAt 0 (12 * 16777216 / 4096) = .staging 0
      ∧ ((inStaging (underErase staged (.erasing eraseRequest))).staging 0).state = .opened
      ∧ (inStaging (underErase staged (.erasing eraseRequest))).fc.port
          = .op { req := eraseRequest, delivered := 0, retryUsed := false, step := 0 }
      ∧ eraseRequest.purpose = .erase 0
      ∧ (inStaging (underErase staged (.erasing eraseRequest))).fc.erase = .erasing eraseRequest
      ∧ (inStaging (underErase staged (.erasing eraseRequest))).pb.prefetch = [] := by decide

theorem witness_AbsentPageNeeded_erase :
    (underErase (needing [{ absentPage .sweep with state := .ready }]) (.erasing eraseRequest)).ready 1 = true
      ∧ (underErase (needing [{ absentPage .sweep with state := .ready }]) (.erasing eraseRequest)).record (.image 1) 0
          = some { absentPage .sweep with state := .ready }
      ∧ (underErase (needing [{ absentPage .sweep with state := .ready }]) (.erasing eraseRequest)).isOrigin 1 = false
      ∧ (underErase (needing [{ absentPage .sweep with state := .ready }]) (.erasing eraseRequest)).windowAt 1 0 = .image 1
      ∧ (underErase (needing [{ absentPage .sweep with state := .ready }]) (.erasing eraseRequest)).present 1 0 = none
      ∧ (underErase (needing [{ absentPage .sweep with state := .ready }]) (.erasing eraseRequest)).fc.port
          = .op { req := eraseRequest, delivered := 0, retryUsed := false, step := 0 }
      ∧ ((underErase (needing [{ absentPage .sweep with state := .ready }]) (.erasing eraseRequest)).fc.queues.find
            (.page (.image 1) 0)).map (·.cls) = some .sweep := by decide

/-- ReadBytePassed, the last byte of an answered run and of a RAW run: the READ's last, one before a page outside every
window, one before a present page. -/
theorem witness_ReadBytePassed_run_end :
    (reading 1 (stream 7 (.answer .withheld))).answers 1 = true ∧ base.pb.prefetch = []
      ∧ ((reading 1 (stream 7 (.answer .withheld))).port 1).stream = some (stream 7 (.answer .withheld))
      ∧ (stream 7 (.answer .withheld)).passed + 1 = (stream 7 (.answer .withheld)).stopAt
      ∧ (stream 7 (.answer .withheld)).passed + 1 = (stream 7 (.answer .withheld)).length
      ∧ ((reading 1 (stream 7 (.raw [] true))).port 1).stream = some (stream 7 (.raw [] true))
      ∧ ((reading 0 { atPageEnd 40956 with serve := .raw [7] false }).port 0).stream
          = some { atPageEnd 40956 with serve := .raw [7] false }
      ∧ (reading 0 { atPageEnd 40956 with serve := .raw [7] false }).windowAt 0 ((40956 + 3 + 1) % 268435456 / 4096) = .none
      ∧ ((reading 1 { atPageEnd 4092 with serve := .answer .withheld }).takeSlot 4 .valid 1 1 []).windowAt 1
          ((4092 + 3 + 1) % 268435456 / 4096) = .image 1
      ∧ ((reading 1 { atPageEnd 4092 with serve := .answer .withheld }).takeSlot 4 .valid 1 1 []).present 1 (1 - 0) = some 4
      ∧ (atPageEnd 4092).passed + 1 = (atPageEnd 4092).stopAt ∧ (atPageEnd 4092).passed + 1 < (atPageEnd 4092).length := by
  decide

/-- Port 0 of `s` after the select release of a frame whose staging or store command `code` goes on; and with a
SET-EXTENDED-ADDRESS deferred behind it. -/
def inBackground (s : State) (code : Byte) : State :=
  s.modPort 0 (fun u => { u with frame := .idle, background := some code })
def deferring (s : State) (code : Byte) : State :=
  s.modPort 0 (fun u =>
    { u with frame := .deferred, frameBytes := [2, 1, 0, 5], background := some code, selectActive := true })

/-- `s` with its flash port in the RESET that ends this op in FAULT. -/
def resetting (s : State) (op : AfterReset) : State := { s with fc := { s.fc with port := .reset op } }

/-- FrameByteCollected, the command whose end each command of the table reports. -/
theorem witness_FrameByteCollected_ends :
    (inBackground (erasing (.erasing eraseRequest)) 0x12).endsWork .eraseComplete 0 0x12
      ∧ (inBackground (erasing (.suspending eraseRequest)) 0x12).endsWork (.suspendAck true) 0 0x12
      ∧ (inBackground programming 0x13).endsWork .programComplete 0 0x13
      ∧ (inBackground (resetting base (.failErase eraseRequest true)) 0x12).endsWork .resetEnd 0 0x12
      ∧ (inBackground (resetting (underErase base (.suspended eraseRequest))
            (.retryRead { req := walkerRead .directory 2048, delivered := 0, retryUsed := true, step := 0 })) 0x12).endsWork .resetEnd 0 0x12
      ∧ (inBackground (resetting base (.failProgram programRequest)) 0x13).endsWork .resetEnd 0 0x13
      ∧ (inBackground (writing (.revocation 9) []) 0x17).endsWork .rowWriteComplete 0 0x17 :=
  ⟨.inl ⟨rfl, _, eraseRequest, rfl, rfl, rfl, .inl ⟨rfl, rfl⟩⟩, .inl ⟨rfl, _, eraseRequest, rfl, rfl, rfl, .inr ⟨rfl, rfl⟩⟩,
    .inr (.inl ⟨rfl, rfl, _, [1, 2], rfl, rfl⟩), .inr (.inr (.inl ⟨rfl, rfl, eraseRequest, true, rfl, rfl⟩)),
    .inr (.inr (.inr (.inl ⟨rfl, rfl, _, eraseRequest, rfl, nofun, rfl, rfl⟩))),
    .inr (.inr (.inr (.inr (.inl ⟨rfl, rfl, programRequest, [1, 2], rfl, rfl⟩)))),
    .inr (.inr (.inr (.inr (.inr ⟨rfl, rfl, _, rfl, rfl, nofun, nofun⟩))))⟩

/-- FrameByteCollected, a command in BACKGROUND behind an idle frame and behind a DEFERRED one. -/
theorem witness_FrameByteCollected_background :
    ((inBackground programming 0x13).port 0).background = some 0x13 ∧ ((inBackground programming 0x13).port 0).frame = .idle
      ∧ (∀ q, ((deferring programming 0x13).port q).frame = .deferred → q = 0)
      ∧ ((deferring programming 0x13).port 0).background = some 0x13 ∧ ((deferring programming 0x13).port 0).frame = .deferred
      ∧ (deferring programming 0x13).answers 0 = true ∧ ((deferring programming 0x13).port 0).ignoring = false
      ∧ ((deferring programming 0x13).port 0).selectActive = true
      ∧ frameOf (.setExt 0 5) = some (0, .setExt 5)
      ∧ requestOf ((deferring programming 0x13).port 0).frameBytes = .setExt 5 := by decide

theorem witness_FrameByteCollected_background_ends :
    (deferring programming 0x13).endsWork .programComplete 0 0x13
      ∧ (deferring (writing (.revocation 9) []) 0x17).endsWork .rowWriteComplete 0 0x17 :=
  ⟨.inr (.inl ⟨rfl, rfl, _, [1, 2], rfl, rfl⟩), .inr (.inr (.inr (.inr (.inr ⟨rfl, rfl, _, rfl, rfl, nofun, nofun⟩))))⟩

/-- The part after a restart, the write of this row still running. -/
def rowAfterRestart (row : RowContent) : State :=
  { State.reset with ots := { Ots.blank with running := some { row := row, source := none } } }

theorem witness_RowWriteCompletes_restart :
    (rowAfterRestart (.revocation 9)).loaded = false
      ∧ (rowAfterRestart (.revocation 9)).ots.running = some { row := .revocation 9, source := none }
      ∧ (rowAfterRestart (.revocation 9)).ots.revoked.length < 24
      ∧ ((rowAfterRestart (.floor 1 5)).ots.floors[(1 : Tag)]).length < 24
      ∧ (rowAfterRestart (.retire 1)).ots.running = some { row := .retire 1, source := none }
      ∧ (rowAfterRestart (.rootKey 2 [])).ots.rootKeys[(2 : Fin 4)] = none
      ∧ (rowAfterRestart (.config configBytes)).ots.config = none := by decide

/-- Port 1 RUNNING with its timer, and a frame under way: receiving, a command that executes, a READ served from slot 3 while
the flash is busy. -/
def deadlineWith (f : PortUnit → PortUnit) : State :=
  { deadlineRunning.modPort 1 f with fc := (running (walkerRead .directory 2048)).fc }

theorem witness_FallbackActs_frame :
    ((deadlineWith (fun u => { u with frame := .responding, stream := some (stream 0 (.slot 3)) })).life 1).state = .running
      ∧ ((deadlineWith (fun u => { u with frame := .responding, stream := some (stream 0 (.slot 3)) })).life 1).deadline = some 2000
      ∧ ((deadlineWith (fun u => { u with frame := .responding, stream := some (stream 0 (.slot 3)) })).port 1).frame = .responding
      ∧ ((deadlineWith (fun u => { u with frame := .responding, stream := some (stream 0 (.slot 3)) })).port 1).stream
          = some (stream 0 (.slot 3))
      ∧ (deadlineWith (fun u => u)).fc.port ≠ .idle ∧ (deadlineWith (fun u => u)).pb.prefetch = []
      ∧ ((deadlineWith (fun u => { u with frame := .executing 0x12 })).port 1).frame = .executing 0x12
      ∧ ((deadlineWith (fun u => { u with frame := .receiving, frameBytes := [3] })).port 1).frame = .receiving
      ∧ ((deadlineWith (fun u => { u with frame := .responding, stream := some (stream 0 (.raw [] false)) })).port 1).stream
          = some (stream 0 (.raw [] false)) := by decide

/-- FallbackActs, the pin: port 1 is served from slot 3, which holds a page of its window, while a fill of another page has
taken slot 5. -/
def fallbackPinned : State :=
  let s := holding (deadlineWith (fun u => { u with frame := .responding, stream := some (stream 0 (.slot 3)) })) 1 none false
  let s := s.takeSlot 5 .filling 1 2 []
  { s with pb := { s.pb with records := [{ absentPage .demand with page := 2, dest := .slot (some 5) }] } }

theorem witness_FallbackActs_pin :
    fallbackPinned.StreamsOwn ∧ fallbackPinned.fc.port ≠ .idle ∧ fallbackPinned.pb.prefetch = []
      ∧ (fallbackPinned.port 1).frame = .responding ∧ (fallbackPinned.port 1).stream = some (stream 0 (.slot 3))
      ∧ (fallbackPinned.bufferSlot 3).pins = 1 ∧ (∀ q i, fallbackPinned.serving q ≠ some (.stallOrigin 1 i))
      ∧ (fallbackPinned.life 1).deadline = some 2000 ∧ fallbackPinned.lc.fallbackUsed[(1 : Tag)] = false
      ∧ (fallbackPinned.image 1).state = .accepted ∧ fallbackPinned.slotValid 1 SlotId.a.other = true := by
  have hs : ∀ q, fallbackPinned.serving q = if q = 1 then some (.slot 3) else none := by decide
  refine ⟨⟨fun p t i h => ?_, fun p n h => ?_, by decide⟩, nofun, rfl, rfl, rfl, rfl, fun q i h => ?_, rfl, rfl, rfl, rfl⟩
  · rw [hs] at h; split at h <;> cases h
  · rw [hs] at h; split at h
    · next hp => cases h; exact ⟨rfl, 1, 0, rfl, by rw [hp]; rfl⟩
    · cases h
  · rw [hs] at h; split at h <;> cases h

/-- PageCompared, the second mismatch of a page of an ACCEPTED window whose RUNNING owner is held on a failure, a READ of it
under way. -/
theorem witness_PageCompared_hold (s : State) (r : FillRecord) (hr : r = { pageRecord true .demand with waiters := [1] })
    (hs : s = (pageFor r (groupAgainst [5, 6])).modLife 1 (fun l => { l with state := .running, deadline := some 2000 })) :
    s.fc.port = .op (pageOp .demand) ∧ s.record (.image 1) 0 = some r ∧ r.reRead = true
      ∧ s.iu.lane = some { start := [], now := [] } ∧ (s.image 1).range = some { start := 10, length := 10 }
      ∧ s.pageDigest r ≠ some (Config.digest ([] ++ s.arriving (pageOp .demand) [5, 6]))
      ∧ (s.image 1).owner = some 1 ∧ (s.image 1).state = .accepted ∧ (s.life 1).state = .running ∧ s.onFailHold 1 = true
      ∧ (s.port 1).frame = .responding ∧ (s.port 1).stream = some (stream 0 (.stallFill 1 0)) := by
  subst hs hr
  exact ⟨rfl, rfl, rfl, rfl, rfl, fun h => digestAt_groupAgainst [5, 6] (Option.some.inj h), rfl, rfl, rfl, rfl, rfl, rfl⟩

/-- SuspendAndTimeouts, a request that joins its queue beside an ERASE, for each class. -/
theorem witness_SuspendAndTimeouts_joins :
    (erasing (.erasing eraseRequest)).fc.port = .op { req := eraseRequest, delivered := 0, retryUsed := false, step := 0 }
      ∧ eraseRequest.purpose = .erase 0 ∧ (erasing (.erasing eraseRequest)).fc.erase = .erasing eraseRequest
      ∧ (erasing (.suspending eraseRequest)).fc.erase = .suspending eraseRequest
      ∧ (erasing (.suspending eraseRequest)).fc.port = (erasing (.erasing eraseRequest)).fc.port
      ∧ (walkerRead .directory 2048).cls = .walker ∧ (pageRequest .demand).cls = .demand
      ∧ (pageRequest .prefetch).cls = .prefetch ∧ (pageRequest .sweep).cls = .sweep ∧ programRequest.cls = .staging := by decide

/-- A RAW READ of port 0 that runs while the ERASE is SUSPENDED. -/
def rawUnderSuspended (waiting : List FlashRequest) : State :=
  { rawRunning 3 with
    fc := { (rawRunning 3).fc with erase := .suspended eraseRequest, queues := { base.fc.queues with walker := waiting } }
    sw := { base.sw with inFlight := .groupCheck } }

theorem witness_SuspendAndTimeouts_resume :
    (rawUnderSuspended []).fc.erase = .suspended eraseRequest ∧ (rawUnderSuspended []).fc.port = .op (rawOp 3)
      ∧ (rawOp 3).req.purpose = .raw 0 ∧ (rawUnderSuspended []).noneDeferred = true
      ∧ (rawUnderSuspended []).pb.prefetch = [] ∧ (rawUnderSuspended []).sw.inFlight ≠ .none
      ∧ (rawUnderSuspended []).fc.queues.pop [.demand, .prefetch, .walker] = none
      ∧ ((rawUnderSuspended [walkerRead .directory 2048]).fc.queues.pop [.demand, .prefetch, .walker]).map Prod.fst
          = some (walkerRead .directory 2048)
      ∧ (∀ x, (walkerRead .directory 2048).purpose ≠ .erase x) ∧ (rawOp 3).req.live = true ∧ (rawOp 3).retryUsed = false
      ∧ ((rawUnderSuspended []).port 0).stream = some (stream 0 (.raw [] false)) := by decide

/-- The flash carries the RAW READ of a READ that port 0 has abandoned. -/
def deadRaw : State :=
  { base with fc := { base.fc with port := .op { rawOp 3 with req := { (rawOp 3).req with live := false } } } }

theorem witness_FlashOpsComplete_dead_raw :
    deadRaw.fc.port = .op { rawOp 3 with req := { (rawOp 3).req with live := false } }
      ∧ (rawOp 3).req.purpose = .raw 0 ∧ deadRaw.pb.prefetch = [] ∧ deadRaw.noneDeferred = true
      ∧ ({ rawOp 3 with req := { (rawOp 3).req with live := false } } : CurrentOp).req.live = false := by decide

end Sys2Proof.Tests
end

section
/-! PROOFS. The frame at the take, on the state: a frame that reaches a ready port, a port that gives no responses, or a port
with a command in BACKGROUND; the tests of R132 as one lemma each; the answers, as one change of the port unit. Then what the
take of a READ leaves of its stream, and the three statements on SET-EXT, NOTICE-READ and REPORT-CLEAR. -/

namespace Sys2Proof.Machine

/-! ## Changes of one port unit -/

/-- A change of a port unit is known by its value at that unit. -/
theorem State.modPort_congr {s : State} {p : PortId} {f g : PortUnit → PortUnit} (h : f (s.port p) = g (s.port p)) :
    s.modPort p f = s.modPort p g := by
  have hv : f s.ports[p] = g s.ports[p] := h
  simp only [State.modPort, updAt, hv]

@[simp] theorem State.answers_modPort (s : State) (p q : PortId) (f : PortUnit → PortUnit) :
    (s.modPort p f).answers q = s.answers q := rfl

@[simp] theorem State.holdoffH_modPort (s : State) (p : PortId) (f : PortUnit → PortUnit) :
    (s.modPort p f).holdoffH = s.holdoffH := rfl

/-! ## The arrival of a whole frame (R127, R128) -/

/-- A port unit while its frame is taken: the select is seen active and the frame's bytes are gone (R128). -/
def PortUnit.taking (u : PortUnit) : PortUnit := { u with selectActive := true, frame := .idle, frameBytes := [] }

/-- The state in which the tests of R132 and the command itself see a frame of a ready port. -/
def State.atTake (s : State) (p : PortId) : State := s.modPort p PortUnit.taking

@[simp] theorem State.factory_atTake (s : State) (p : PortId) : (s.atTake p).factory = s.factory := rfl

@[simp] theorem State.formatterPort_atTake (s : State) (p : PortId) : (s.atTake p).formatterPort = s.formatterPort := rfl

@[simp] theorem State.holdoffH_atTake (s : State) (p : PortId) : (s.atTake p).holdoffH = s.holdoffH := rfl

@[simp] theorem State.port_atTake (s : State) (p : PortId) : (s.atTake p).port p = (s.port p).taking :=
  s.port_modPort_self p _

theorem State.ready_iff {s : State} {p : PortId} :
    s.ready p = true ↔ s.answers p = true ∧ (s.port p).ignoring = false ∧ (s.port p).frame = .idle
      ∧ (s.port p).background = none := by
  simp [State.ready, and_assoc]

theorem State.formatterReady_iff {s : State} {p : PortId} :
    s.formatterReady p = true ↔ s.ready p = true ∧ s.factory = false ∧ s.formatterPort = some p := by
  simp [State.formatterReady, and_assoc]

/-- A frame that reaches an IDLE port is complete at once (log entry 9). -/
theorem State.deliverFrame_idle {s : State} {p : PortId} (ha : s.answers p = true) (hi : (s.port p).ignoring = false)
    (hf : (s.port p).frame = .idle) (r : Request) :
    s.deliverFrame p r = (s.modPort p (fun u => { u with selectActive := true })).arrive p r.bytes r := by
  simp [State.deliverFrame, ha, hi, hf]

/-- Behind a BACKGROUND command the frame is DEFERRED, whatever it asks for. -/
theorem State.deliverFrame_deferred {s : State} {p : PortId} (ha : s.answers p = true) (hi : (s.port p).ignoring = false)
    (hf : (s.port p).frame = .idle) (hb : (s.port p).background.isSome = true) (r : Request) :
    s.deliverFrame p r
      = s.modPort p (fun u => { u with selectActive := true, frame := .deferred, frameBytes := r.bytes }) := by
  obtain ⟨code, hb⟩ := Option.isSome_iff_exists.1 hb
  rw [State.deliverFrame_idle ha hi hf]
  simp [State.arrive, hb]

theorem State.receiveByte_not_answers {s : State} {p : PortId} (h : s.answers p = false) (b : Byte) :
    s.receiveByte p b = s.modPort p (fun u => { u with selectActive := true }) := by
  simp [State.receiveByte, h]

/-- A port that gives no responses discards a frame: it has only seen the select become active. -/
theorem State.deliverFrame_not_answers {s : State} {p : PortId} (h : s.answers p = false) (r : Request) :
    s.deliverFrame p r = s.modPort p (fun u => { u with selectActive := true }) := by
  have further : ∀ b, (s.modPort p (fun u => { u with selectActive := true })).receiveByte p b
      = s.modPort p (fun u => { u with selectActive := true }) := fun b => by
    rw [State.receiveByte_not_answers (by simpa using h), State.modPort_modPort]
  simp only [State.deliverFrame, h, Bool.false_and, Bool.false_eq_true, if_false, Request.bytes, List.foldl_cons,
    State.receiveByte_not_answers h]
  exact List.foldl_fixed' further _

/-- Select release discards a DEFERRED frame. -/
theorem State.releaseSelect_deferred {s : State} {p : PortId} (h : (s.port p).frame = .deferred) :
    s.releaseSelect p
      = s.modPort p (fun u => { u with selectActive := false, ignoring := false, frame := .idle, frameBytes := [] }) := by
  simp [State.releaseSelect, State.endFrame, h]

/-- Select release drops the rest of a command's response. -/
theorem State.releaseSelect_responding {s : State} {p : PortId} (h : (s.port p).frame = .responding)
    (hs : (s.port p).stream = none) :
    s.releaseSelect p
      = s.modPort p (fun u => { u with selectActive := false, ignoring := false, frame := .idle, response := [] }) := by
  simp [State.releaseSelect, State.endFrame, State.abandonRead, State.serving, h, hs]

/-! ## The answers of a command (R14, R129) -/

theorem State.respond_modPort (s : State) (p : PortId) (f : PortUnit → PortUnit) (bytes : List Byte) :
    (s.modPort p f).respond p bytes
      = s.modPort p (fun u => { f u with frame := .responding, response := bytes, stream := none }) :=
  s.modPort_modPort p f _

@[simp] theorem State.respond_atTake (s : State) (p : PortId) (bytes : List Byte) :
    (s.atTake p).respond p bytes = s.answering p bytes :=
  s.respond_modPort p _ bytes

@[simp] theorem State.refuse_atTake (s : State) (p : PortId) (c : RefusalCode) :
    (s.atTake p).refuse p c = s.answering p (refusedResponse c) :=
  s.respond_atTake p _

/-! ## Violation reports at the take (R59, R61) -/

theorem PortUnit.settleNotice_taking (u : PortUnit) : u.taking.settleNotice = u.settleNotice.taking := by
  have level : u.taking.noticeLevel = u.noticeLevel := rfl
  simp only [PortUnit.settleNotice, level]
  split <;> rfl

theorem PortUnit.post_taking (h : Nat) (ev : Event) (u : PortUnit) : PortUnit.post h ev u.taking = (u.post h ev).taking :=
  PortUnit.settleNotice_taking { u with events := u.events ||| ev.bit,
                                        holdoff := if u.restartsHoldoff ev then holdoffOf h else u.holdoff }

theorem PortUnit.reported_taking (u : PortUnit) (h : Nat) (kind : ViolationKind) (detail : Nat) :
    u.taking.reported h kind detail = (u.reported h kind detail).taking := by
  have same : u.taking.violation = u.violation := rfl
  simp only [PortUnit.reported, same]
  split
  · exact PortUnit.post_taking h .violation
      { u with violation := { kind := some kind, detail := detail, further := 0, overflow := false } }
  · rfl

/-- A violation report is one change of the port unit. -/
theorem State.violate_eq_modPort (s : State) (p : PortId) (kind : ViolationKind) (detail : Nat) :
    s.violate p kind detail = s.modPort p (fun u => u.reported s.holdoffH kind detail) := by
  unfold State.violate
  split
  · next hk =>
    rw [State.post, State.modPort_modPort, State.holdoffH_modPort]
    exact State.modPort_congr (by simp [PortUnit.reported, hk])
  · next hk => exact State.modPort_congr (by simp [PortUnit.reported, hk])

theorem State.violate_refuse_atTake (s : State) (p : PortId) (kind : ViolationKind) (detail : Nat) (c : RefusalCode) :
    ((s.atTake p).violate p kind detail).refuse p c = s.refusing p kind detail c := by
  rw [State.violate_eq_modPort, State.holdoffH_atTake, State.atTake, State.modPort_modPort, State.refuse,
    State.respond_modPort]
  exact State.modPort_congr (by rw [PortUnit.reported_taking]; rfl)

/-! ## The tests of R132 at a ready port -/

section
variable {s : State} {p : PortId} {r : Request} (hr : s.ready p = true) (hw : r.wellFormed = true)
include hr

/-- A frame that reaches a ready port meets tests 1 to 3 in their order, and then its command. -/
theorem State.deliverFrame_ready :
    s.deliverFrame p r =
      if !r.wellFormed then s.answering p (refusedResponse .frame)
      else if r.formatterOnly && s.formatterPort != some p then s.refusing p .command r.code.toNat .notPermitted
      else if s.factory && !r.takenInFactory then s.answering p (refusedResponse .state)
      else (s.atTake p).carryOut p r := by
  obtain ⟨ha, hi, hf, hb⟩ := State.ready_iff.1 hr
  have htake : ((s.modPort p (fun u => { u with selectActive := true })).modPort p
      (fun u => { u with frame := .idle, frameBytes := [] })) = s.atTake p := s.modPort_modPort p _ _
  rw [State.deliverFrame_idle ha hi hf]
  simp only [State.arrive, State.port_modPort_self, hb, State.take, htake, State.formatterPort_atTake,
    State.factory_atTake, State.refuse_atTake, State.violate_refuse_atTake]

include hw

theorem State.deliverFrame_notPermitted (ho : r.formatterOnly = true) (hp : s.formatterPort ≠ some p) :
    s.deliverFrame p r = s.refusing p .command r.code.toNat .notPermitted := by
  simp [State.deliverFrame_ready hr, hw, ho, hp]

theorem State.deliverFrame_factory (ho : r.formatterOnly = true → s.formatterPort = some p) (hs : s.factory = true)
    (ht : r.takenInFactory = false) : s.deliverFrame p r = s.answering p (refusedResponse .state) := by
  have permitted : (r.formatterOnly && s.formatterPort != some p) = false := by simpa using ho
  simp [State.deliverFrame_ready hr, hw, permitted, hs, ht]

theorem State.deliverFrame_carried (ho : r.formatterOnly = true → s.formatterPort = some p)
    (ht : s.factory = true → r.takenInFactory = true) : s.deliverFrame p r = (s.atTake p).carryOut p r := by
  have permitted : (r.formatterOnly && s.formatterPort != some p) = false := by simpa using ho
  have inFactory : (s.factory && !r.takenInFactory) = false := by simpa using ht
  simp [State.deliverFrame_ready hr, hw, permitted, inFactory]

end

/-! ## What the fill machinery leaves of the ports

From the claim of a group to the start of a flash op, no operation touches a port unit or the prefetch list. -/

/-- What a READ's take reads again after its page is classified: the port units and the prefetch list. -/
def State.portSide (s : State) : Vector PortUnit 4 × List (PortId × Tag × Nat) := (s.ports, s.pb.prefetch)

theorem State.prepareDestination_portSide (s : State) (r : FillRecord) : (s.prepareDestination r).portSide = s.portSide := by
  unfold State.prepareDestination
  split
  · split <;> rfl
  all_goals rfl

theorem State.enterReading_portSide (s : State) (w : WindowKey) (i : Nat) : (s.enterReading w i).portSide = s.portSide := by
  unfold State.enterReading
  split
  · rfl
  · split
    · rfl
    · exact State.prepareDestination_portSide _ _

theorem State.startOp_portSide (s : State) (r : FlashRequest) : (s.startOp r).portSide = s.portSide := by
  unfold State.startOp
  cases r.purpose with
  | page w i =>
    dsimp only
    split
    · exact State.enterReading_portSide _ _ _
    · rfl
  | directory | probe | walkerManifest | sealManifest | group | raw | program | erase => rfl

theorem State.pick_portSide (s : State) : s.pick.portSide = s.portSide := by
  unfold State.pick
  split
  · split
    · split
      · exact State.startOp_portSide _ _
      · rfl
    · split
      · exact State.startOp_portSide _ _
      · rfl
  · rfl

theorem State.afterJoin_portSide (s : State) (c : OpClass) : (s.afterJoin c).portSide = s.portSide := by
  unfold State.afterJoin
  split
  · split <;> rfl
  · exact State.pick_portSide s

theorem State.request_portSide (s : State) (r : FlashRequest) : (s.request r).portSide = s.portSide :=
  State.afterJoin_portSide _ _

theorem State.requestAtHead_portSide (s : State) (r : FlashRequest) : (s.requestAtHead r).portSide = s.portSide :=
  State.afterJoin_portSide _ _

theorem State.raiseRequest_portSide (s : State) (q : Purpose) (c : OpClass) : (s.raiseRequest q c).portSide = s.portSide := by
  unfold State.raiseRequest
  split
  · split
    · rfl
    · exact State.request_portSide _ _
  · rfl

theorem State.raiseAtHead_portSide (s : State) (q : Purpose) (c : OpClass) : (s.raiseAtHead q c).portSide = s.portSide := by
  unfold State.raiseAtHead
  split
  · exact State.requestAtHead_portSide _ _
  · rfl

theorem State.raiseEntry_portSide (s : State) (e : Fin 8) (k : GroupKey) (c : OpClass) :
    (s.raiseEntry e k c).portSide = s.portSide :=
  State.raiseRequest_portSide _ _ _

theorem State.becomeReady_portSide (s : State) (r : FillRecord) : (s.becomeReady r).portSide = s.portSide :=
  State.request_portSide _ _

theorem State.claimGroup_portSide (s : State) (k : GroupKey) (addr : Nat) (c : OpClass) :
    (s.claimGroup k addr c).1.portSide = s.portSide := by
  unfold State.claimGroup
  split
  · split
    · rfl
    · exact State.raiseEntry_portSide _ _ _ _
  · split
    · exact State.request_portSide _ _
    · rfl

theorem State.claimForRecord_portSide (s : State) (r : FillRecord) : (s.claimForRecord r).portSide = s.portSide := by
  have hc := s.claimGroup_portSide (r.win, r.page / 64) r.groupAddr r.cls
  unfold State.claimForRecord
  split <;> (rename_i heq; rw [heq] at hc)
  · exact (State.becomeReady_portSide _ _).trans hc
  · exact hc
  · exact hc

theorem State.claimWaiter_portSide {s t : State} {x : GroupWaiter} (h : s.claimWaiter x = some t) :
    t.portSide = s.portSide := by
  unfold State.claimWaiter at h
  split at h
  · next w i =>
    split at h
    · next r _ =>
      have hc := s.claimGroup_portSide (w, i / 64) r.groupAddr r.cls
      split at h <;> (rename_i heq; rw [heq] at hc; cases h)
      · exact (State.becomeReady_portSide _ _).trans hc
      · exact hc
    · cases h
      rfl
  · split at h
    · next j _ =>
      have hc := s.claimGroup_portSide (.staging j.handover.win, j.group) (s.stagedGroupAddr j.handover.win j.group) .sweep
      split at h <;> (rename_i heq; rw [heq] at hc; cases h) <;> exact hc
    · cases h
      rfl

theorem State.serveRounds_portSide (n : Nat) (s : State) : (State.serveRounds n s).portSide = s.portSide := by
  induction n generalizing s with
  | zero => rfl
  | succ n ih =>
    simp only [State.serveRounds]
    split
    · rfl
    · split
      · next heq => exact (ih _).trans (State.claimWaiter_portSide heq)
      · rfl

theorem State.createRecord_portSide (s : State) (w : WindowKey) (i : Nat) (c : OpClass) (origin holdFor : Option PortId)
    (waiters : List PortId) : (s.createRecord w i c origin holdFor waiters).portSide = s.portSide :=
  (State.serveRounds_portSide _ _).trans (State.claimForRecord_portSide _ _)

theorem State.raiseRecord_portSide (s : State) (w : WindowKey) (i : Nat) (c : OpClass) :
    (s.raiseRecord w i c).portSide = s.portSide := by
  unfold State.raiseRecord
  split
  · rfl
  · next r _ =>
    dsimp only
    split
    · rfl
    · split
      · exact State.raiseEntry_portSide _ _ _ _
      · rfl
    · exact State.raiseRequest_portSide _ _ _
    · rfl
    · exact State.raiseAtHead_portSide _ _ _

/-! ## The take of a READ (R49, R50, R52) -/

/-- On the port's side a need changes only how the port's READ is served. -/
theorem State.need_portSide (s : State) (p : PortId) (t : Tag) (i : Nat) :
    ∃ v, (s.need p t i).portSide = (s.setServe p v).portSide := by
  unfold State.need
  split
  · exact ⟨_, rfl⟩
  · split
    · exact ⟨_, rfl⟩
    · split
      · split
        · exact ⟨_, rfl⟩
        · split
          · exact ⟨_, rfl⟩
          · exact ⟨_, State.raiseRecord_portSide _ _ _ _⟩
      · split
        · exact ⟨_, rfl⟩
        · exact ⟨_, State.createRecord_portSide _ _ _ _ _ _ _⟩

theorem State.setServe_setStream (s : State) (p : PortId) (st : ReadStream) (v : Serve) :
    (s.setStream p st).setServe p v = s.setStream p { st with serve := v } :=
  s.modPort_modPort p _ _

/-- A need right after the stream was set leaves that stream, served in some way. -/
theorem State.need_setStream_portSide (s : State) (p : PortId) (st : ReadStream) (t : Tag) (i : Nat) :
    ∃ v, ((s.setStream p st).need p t i).portSide = (s.setStream p { st with serve := v }).portSide := by
  obtain ⟨v, hv⟩ := (s.setStream p st).need_portSide p t i
  exact ⟨v, by rw [hv, State.setServe_setStream]⟩

/-- On the port's side a classification decides only how the port's READ is served, and up to which byte. -/
theorem State.classify_portSide {s : State} {p : PortId} {st : ReadStream} (h : (s.port p).stream = some st) :
    ∃ v stop, (s.classify p).portSide = (s.setStream p { st with serve := v, stopAt := stop }).portSide := by
  have raw : ∀ logical endPage addr, ∃ v stop, (s.startRaw p st logical endPage addr).portSide
      = (s.setStream p { st with serve := v, stopAt := stop }).portSide :=
    fun _ _ _ => ⟨_, _, State.request_portSide _ _⟩
  have page : ∀ g i w stop₀, ∃ v stop, ((s.setStream p { st with serve := w, stopAt := stop₀ }).need p g i).portSide
      = (s.setStream p { st with serve := v, stopAt := stop }).portSide := fun g i w stop₀ => by
    obtain ⟨v, hv⟩ := s.need_setStream_portSide p { st with serve := w, stopAt := stop₀ } g i
    exact ⟨v, stop₀, hv⟩
  simp only [State.classify, h]
  generalize s.windowAt p _ = window
  cases window with
  | none => exact ⟨_, _, rfl⟩
  | factory => exact raw _ _ _
  | staging w =>
    dsimp only
    split
    · exact ⟨_, _, rfl⟩
    · cases (s.staging w).state with
      | opened | sealed | sealFailed => exact raw _ _ _
      | sealing | free | discarded => exact ⟨_, _, rfl⟩
  | image g =>
    dsimp only
    cases (s.image g).state with
    | unused | checking | rejected => exact ⟨_, _, rfl⟩
    | accepted | failed =>
      dsimp only
      split
      · exact ⟨_, _, rfl⟩
      · exact page _ _ _ _

theorem PortUnit.settleNotice_stream (u : PortUnit) : u.settleNotice.stream = u.stream := by
  unfold PortUnit.settleNotice
  split <;> rfl

theorem State.post_stream (s : State) (p q : PortId) (ev : Event) : ((s.post p ev).port q).stream = (s.port q).stream := by
  unfold State.post
  rw [State.port_modPort]
  split
  · exact PortUnit.settleNotice_stream _
  · rfl

/-- An evaluation of the permit condition posts events and leaves every READ. -/
theorem State.evalPermit_stream (s : State) (q : PortId) : (s.evalPermit.port q).stream = (s.port q).stream := by
  have posts : ∀ (l : List PortId) (u : State),
      ((l.foldl (fun s p => if (s.life p).state == .running || (s.life p).state == .confirmed then s.post p .permit else s)
        u).port q).stream = (u.port q).stream := fun l => by
    induction l with
    | nil => exact fun _ => rfl
    | cons p l ih =>
      intro u
      rw [List.foldl_cons, ih]
      split
      · exact State.post_stream _ _ _ _
      · rfl
  simp only [State.evalPermit]
  split
  · rfl
  · exact posts _ _

theorem State.serveList_nil {s : State} (h : s.pb.prefetch = []) : s.serveList = s := by
  simp [State.serveList, h, State.prefetchRounds]

/-- The READ in progress right after its take starts at E × 2^24 + OFFSET, with no byte passed (R49, R50). -/
theorem State.takeRead_stream {s : State} (p : PortId) (offset : BitVec 24) (length : BitVec 16) (h : s.pb.prefetch = []) :
    ∃ v stop, ((s.takeRead p offset length).port p).stream = some
      { start := (s.port p).e.toNat * 16777216 + offset.toNat, length := length.toNat, passed := 0, serve := v, stopAt := stop,
        reportedOutside := false, reportedWithheld := false } := by
  simp only [State.takeRead]
  generalize hu : s.modPort p _ = u
  have hs : ((u.port p).stream) = some
      { start := (s.port p).e.toNat * 16777216 + offset.toNat, length := length.toNat, passed := 0,
        serve := .answer .outside, stopAt := 0, reportedOutside := false, reportedWithheld := false } := by
    rw [← hu, State.port_modPort_self]
  obtain ⟨v, stop, hc⟩ := State.classify_portSide hs
  obtain ⟨hports, hlist⟩ := Prod.mk.inj hc
  have hnil : (u.classify p).pb.prefetch = [] := by
    rw [hlist, ← h, ← hu]
    rfl
  refine ⟨v, stop, ?_⟩
  rw [State.evalPermit_stream, State.serveList_nil hnil, State.port, hports]
  exact congrArg PortUnit.stream (u.port_modPort_self p _)

/-! ## SET-EXT (R136) -/

theorem State.takeSetExt_inRange (s : State) (p : PortId) {v : Byte} (hv : v.toNat ≤ 15) :
    (s.atTake p).takeSetExt p v
      = s.modPort p (fun u => { (u.answered (doneResponse [])) with e := BitVec.ofNat 4 v.toNat }) := by
  rw [State.takeSetExt, if_neg (Nat.not_lt.2 hv), State.atTake, State.modPort_modPort]
  exact s.respond_modPort p _ _

theorem State.takeSetExt_outOfRange (s : State) (p : PortId) {v : Byte} (hv : 15 < v.toNat) :
    (s.atTake p).takeSetExt p v = s.answering p (refusedResponse .range) := by
  rw [State.takeSetExt, if_pos hv, State.refuse_atTake]

/-- Settles O19: the take of SET-EXT by its tests, the take of a READ by its stream, and the two ways a frame is not taken. -/
theorem setExtSetsE : Obligations.SetExtSetsE := by
  intro s p v
  have taken : s.ready p = true → s.factory = false →
      exec (.setExt p v) s = .next ((s.atTake p).takeSetExt p v) := fun hr hf =>
    congrArg Host.Outcome.next (State.deliverFrame_carried (r := .setExt v) hr rfl nofun (by simp [hf]))
  refine ⟨?inRange, ?read, ?outOfRange, ?factory, ?noResponses, ?deferred⟩
  case inRange =>
    intro hr hf hv
    rw [taken hr hf, State.takeSetExt_inRange s p hv]
  case read =>
    intro offset length hr he h1 h2 hl
    have hw : (Request.read offset length).wellFormed = true := by simp [Request.wellFormed, h1, h2]
    have hx : exec (.read p offset length) s = .next ((s.atTake p).takeRead p offset length) :=
      congrArg Host.Outcome.next (State.deliverFrame_carried hr hw nofun (fun _ => rfl))
    obtain ⟨serve, stop, hs⟩ := (s.atTake p).takeRead_stream p offset length hl
    refine ⟨_, _, hx, hs, ?_⟩
    have hE : ((s.atTake p).port p).e = BitVec.ofNat 4 v.toNat := by rw [State.port_atTake]; exact he
    simp only [hE, BitVec.toNat_ofNat, Nat.reducePow]
  case outOfRange =>
    intro hr hf hv
    rw [taken hr hf, State.takeSetExt_outOfRange s p hv]
  case factory =>
    intro hr hf
    exact congrArg Host.Outcome.next (State.deliverFrame_factory (r := .setExt v) hr rfl nofun hf rfl)
  case noResponses =>
    intro ha
    exact ⟨_, congrArg Host.Outcome.next (State.deliverFrame_not_answers ha (.setExt v)), by simp⟩
  case deferred =>
    intro ha hi hf hb
    refine ⟨_, _, congrArg Host.Outcome.next (State.deliverFrame_deferred ha hi hf hb (.setExt v)), by simp, by simp,
      congrArg Host.Outcome.next (State.releaseSelect_deferred (by simp)), by simp, by simp⟩

/-! ## NOTICE-READ (R147) -/

theorem State.takeNoticeRead_atTake (s : State) (p : PortId) :
    (s.atTake p).takeNoticeRead p = s.modPort p (fun u =>
      { (u.answered (doneResponse [u.events, u.mask])) with events := 0, holdoff := none }) := by
  rw [State.takeNoticeRead, State.port_atTake, State.atTake, State.modPort_modPort]
  exact (s.respond_modPort p _ _).trans (State.modPort_congr rfl)

theorem PortUnit.noticeLevel_of_no_events {u : PortUnit} (h : u.events = 0) : u.noticeLevel = false := by
  simp [PortUnit.noticeLevel, h]

theorem PortUnit.settleNotice_events (u : PortUnit) : u.settleNotice.events = u.events := by
  unfold PortUnit.settleNotice
  split <;> rfl

theorem PortUnit.post_events (h : Nat) (ev : Event) (u : PortUnit) : (u.post h ev).events = u.events ||| ev.bit :=
  PortUnit.settleNotice_events _

/-- NOTICE cannot rise from ordinary events while the timer runs (R144), so the timer keeps its value; a stopped one stays
stopped. -/
theorem PortUnit.settleNotice_holdoff_ordinary {u : PortUnit} (h : u.events &&& urgentBits = 0) :
    u.settleNotice.holdoff = u.holdoff := by
  have hu : u.events &&& u.mask &&& urgentBits = 0 := by
    rw [BitVec.and_assoc, BitVec.and_comm u.mask, ← BitVec.and_assoc, h]
    exact BitVec.zero_and
  cases hh : u.holdoff with
  | none =>
    unfold PortUnit.settleNotice
    split
    · rfl
    · exact hh
  | some n => simp [PortUnit.settleNotice, PortUnit.noticeLevel, hu, hh]

theorem Event.bit_and_urgentBits {ev : Event} (h : ev.urgent = false) : ev.bit &&& urgentBits = 0 := by
  cases ev
  case violation => cases h
  case flashFault => cases h
  all_goals rfl

/-- An ordinary enabled event posted to an empty set starts a full holdoff (R144). -/
theorem PortUnit.post_holdoff_of_no_events {u : PortUnit} (h : Nat) {ev : Event} (hu : u.events = 0)
    (ho : ev.urgent = false) (hm : u.mask &&& ev.bit ≠ 0) : (u.post h ev).holdoff = holdoffOf h := by
  have restarts : u.restartsHoldoff ev = true := by
    simpa [PortUnit.restartsHoldoff, ho, PortUnit.noticeLevel_of_no_events hu] using hm
  rw [PortUnit.post, PortUnit.settleNotice_holdoff_ordinary]
  · simp [restarts]
  · simp [hu, Event.bit_and_urgentBits ho]

/-- Settles O21: the take of NOTICE-READ, then a posting to the emptied set, or the release of select. -/
theorem noticeReadEmptiesSet : Obligations.NoticeReadEmptiesSet := by
  intro s p hr
  refine ⟨_, congrArg Host.Outcome.next
    (State.deliverFrame_carried (r := .noticeRead) hr rfl nofun (fun _ => rfl)), State.takeNoticeRead_atTake s p, ?_⟩
  simp only [State.carryOut, State.takeNoticeRead_atTake]
  refine ⟨?notice, fun ev => ⟨?events, fun ho hm => ?holdoff⟩, ?abandoned⟩
  case notice => simp [State.notice, PortUnit.noticeLevel]
  case events => simp [State.post, PortUnit.post_events]
  case holdoff =>
    rw [State.post, State.port_modPort_self]
    exact PortUnit.post_holdoff_of_no_events _ (by simp) ho hm
  case abandoned =>
    refine ⟨_, congrArg Host.Outcome.next (State.releaseSelect_responding ?_ ?_), ?_⟩ <;> simp [PortUnit.answered]

/-! ## REPORT-CLEAR (R139) -/

theorem State.takeReportClear_atTake (s : State) (p : PortId) :
    (s.atTake p).takeReportClear p
      = State.answering { s with fc := { s.fc with timeout := TimeoutRecord.empty } } p (doneResponse []) :=
  State.respond_atTake { s with fc := { s.fc with timeout := TimeoutRecord.empty } } p _

theorem State.postFormatter_fc (s : State) (ev : Event) : (s.postFormatter ev).fc = s.fc := by
  unfold State.postFormatter
  split <;> rfl

/-- The event a FAULT posts leaves the flash controller, and the record just entered, alone (R121). -/
theorem State.recordFault_timeout (s : State) (k : TimeoutKind) (r : FlashRequest) :
    (s.recordFault k r).fc.timeout = s.fc.timeout.enter k r.addr r.cls r.purpose.requester := by
  rw [State.recordFault, State.postFormatter_fc]

/-- Settles O24: the tests of R132 in their order, and a FAULT entered in the emptied record. -/
theorem reportClearEmptiesTimeout : Obligations.ReportClearEmptiesTimeout := by
  intro s p hr
  refine ⟨fun hready => ?taken, fun hp => ?notPermitted, fun hp hf => ?factory⟩
  case taken =>
    obtain ⟨-, hf, hp⟩ := State.formatterReady_iff.1 hready
    refine ⟨_, congrArg Host.Outcome.next
      (State.deliverFrame_carried (r := .reportClear) hr rfl (fun _ => hp) (by simp [hf])),
      State.takeReportClear_atTake s p, fun k r => ?_⟩
    rw [State.recordFault_timeout, State.carryOut, State.takeReportClear_atTake]
    rfl
  case notPermitted =>
    exact congrArg Host.Outcome.next (State.deliverFrame_notPermitted (r := .reportClear) hr rfl rfl hp)
  case factory =>
    exact congrArg Host.Outcome.next (State.deliverFrame_factory (r := .reportClear) hr rfl (fun _ => hp) hf rfl)

end Sys2Proof.Machine
end

section
/-! PROOFS. STAGE-OPEN: the tag an argument names, what the two searches of the staging window table find, the take by its
tests, and the statement on it. -/

namespace Sys2Proof.Machine

/-! ## The tag an argument names -/

theorem tagOf_eq_none {tag : Byte} (h : 7 < tag.toNat) : tagOf tag = none := dif_neg (by omega)

theorem tagOf_eq_some {tag : Byte} {t : Tag} (h : tag.toNat = t.val) : tagOf tag = some t := by
  rw [tagOf, dif_pos (h ▸ t.isLt)]
  exact congrArg some (Fin.ext h)

/-! ## The searches of the staging window table (R181, tests 5 and 6) -/

theorem mem_allStaging : ∀ w : StagingId, w ∈ allStaging := by decide

theorem State.stagingBusy_iff {s : State} {t : Tag} :
    s.stagingBusy t = true ↔
      ∃ w, (s.staging w).tag = t ∧ ((s.staging w).state = .opened ∨ (s.staging w).state = .sealing) := by
  simp [State.stagingBusy, mem_allStaging]

theorem State.stagingBusy_eq_false_iff {s : State} {t : Tag} :
    s.stagingBusy t = false ↔
      ∀ w, (s.staging w).tag = t → (s.staging w).state ≠ .opened ∧ (s.staging w).state ≠ .sealing := by
  simp [State.stagingBusy, mem_allStaging]

theorem State.stagingToOpen_eq_none_iff {s : State} :
    s.stagingToOpen = none ↔ ∀ w, (s.staging w).state ≠ .free ∧ (s.staging w).state ≠ .discarded := by
  simp [State.stagingToOpen, mem_allStaging]

/-- The table is searched in ascending order, so the window found is the lowest. -/
theorem State.stagingToOpen_eq_some {s : State} {w : StagingId}
    (hw : (s.staging w).state = .free ∨ (s.staging w).state = .discarded)
    (lowest : ∀ v, v < w → (s.staging v).state ≠ .free ∧ (s.staging v).state ≠ .discarded) :
    s.stagingToOpen = some w := by
  match w with
  | 0 =>
    rw [State.stagingToOpen, allStaging, List.find?_cons_of_pos]
    simpa using hw
  | 1 =>
    rw [State.stagingToOpen, allStaging, List.find?_cons_of_neg, List.find?_cons_of_pos]
    · simpa using hw
    · simpa using lowest 0 (by decide)

/-! ## The take of STAGE-OPEN (R181) -/

section
variable {s : State} {p : PortId} {tag : Byte} {t : Tag} {x : SlotId}

theorem State.takeStageOpen_range (h : 7 < tag.toNat) : s.takeStageOpen p tag = s.refuse p .range := by
  rw [State.takeStageOpen, tagOf_eq_none h]

theorem State.takeStageOpen_notConfirmed (ht : tag.toNat = t.val) (h : (s.life p).state ≠ .confirmed) :
    s.takeStageOpen p tag = s.refuse p .state := by
  simp only [State.takeStageOpen, tagOf_eq_some ht, if_neg h]

theorem State.takeStageOpen_confirmed (ht : tag.toNat = t.val) (h : (s.life p).state = .confirmed) :
    s.takeStageOpen p tag = s.stageOpenTag p t := by
  simp only [State.takeStageOpen, tagOf_eq_some ht, if_pos h]

theorem State.stageOpenTag_notAccepted (h : (s.image t).state ≠ .accepted) : s.stageOpenTag p t = s.refuse p .state := by
  unfold State.stageOpenTag
  split
  · next ha _ => exact absurd ha h
  · rfl

theorem State.takeStageOpen_notAccepted (ht : tag.toNat = t.val) (h : (s.image t).state ≠ .accepted) :
    s.takeStageOpen p tag = s.refuse p .state := by
  by_cases hc : (s.life p).state = .confirmed
  · rw [State.takeStageOpen_confirmed ht hc, State.stageOpenTag_notAccepted h]
  · exact State.takeStageOpen_notConfirmed ht hc

section
variable (ha : (s.image t).state = .accepted) (hx : (s.image t).slot = some x)
include ha hx

theorem State.stageOpenTag_notValid (hv : s.slotValid t x.other = false) : s.stageOpenTag p t = s.refuse p .state := by
  simp [State.stageOpenTag, ha, hx, hv]

variable (hv : s.slotValid t x.other = true)
include hv

theorem State.stageOpenTag_busy (hb : s.stagingBusy t = true) : s.stageOpenTag p t = s.refuse p .busy := by
  simp [State.stageOpenTag, ha, hx, hv, hb]

theorem State.stageOpenTag_full (hb : s.stagingBusy t = false) (ho : s.stagingToOpen = none) :
    s.stageOpenTag p t = s.refuse p .full := by
  simp [State.stageOpenTag, ha, hx, hv, hb, ho]

theorem State.stageOpenTag_opened {w : StagingId} (hb : s.stagingBusy t = false) (ho : s.stagingToOpen = some w) :
    s.stageOpenTag p t
      = (s.modStaging w (fun _ => s.openedWindow t x.other)).done p
          [byteOf w.val, byteOf (slotCode (some x.other))] := by
  simp [State.stageOpenTag, ha, hx, hv, hb, ho]

end
end

/-- What the take changes of the port is no part of the staging window table, so the opening may come first. -/
theorem State.modStaging_done_atTake (s : State) (p : PortId) (w : StagingId) (f : StagingWindow → StagingWindow)
    (fields : List Byte) :
    ((s.atTake p).modStaging w f).done p fields = (s.modStaging w f).answering p (doneResponse fields) :=
  (s.modStaging w f).respond_atTake p _

/-- Settles O27: the tests of R181 in their order at the take, and the window the search finds. -/
theorem stageOpenOpensWindow : Obligations.StageOpenOpensWindow := by
  intro s p tag hready
  obtain ⟨hr, hf, hp⟩ := State.formatterReady_iff.1 hready
  have taken : exec (.stageOpen p tag) s = .next ((s.atTake p).takeStageOpen p tag) :=
    congrArg Host.Outcome.next (State.deliverFrame_carried (r := .stageOpen tag) hr rfl (fun _ => hp) (by simp [hf]))
  rw [taken]
  refine ⟨fun h => ?range, fun t ht => ⟨fun h => ?notConfirmed, fun h => ?notAccepted, fun x hc ha hx => ?accepted⟩⟩
  case range => rw [State.takeStageOpen_range h, State.refuse_atTake]
  case notConfirmed => rw [State.takeStageOpen_notConfirmed (s := s.atTake p) ht h, State.refuse_atTake]
  case notAccepted => rw [State.takeStageOpen_notAccepted (s := s.atTake p) ht h, State.refuse_atTake]
  case accepted =>
    rw [State.takeStageOpen_confirmed (s := s.atTake p) ht hc]
    refine ⟨fun hv => ?notValid, fun hv hb => ?busy, fun hv hb => ?notBusy⟩
    case notValid => rw [State.stageOpenTag_notValid (s := s.atTake p) ha hx hv, State.refuse_atTake]
    case busy =>
      rw [State.stageOpenTag_busy (s := s.atTake p) ha hx hv (State.stagingBusy_iff.2 hb), State.refuse_atTake]
    case notBusy =>
      have idle : s.stagingBusy t = false := State.stagingBusy_eq_false_iff.2 hb
      refine ⟨fun hfull => ?full, fun w hw lowest => ?opened⟩
      case full =>
        rw [State.stageOpenTag_full (s := s.atTake p) ha hx hv idle (State.stagingToOpen_eq_none_iff.2 hfull),
          State.refuse_atTake]
      case opened =>
        rw [State.stageOpenTag_opened (s := s.atTake p) ha hx hv idle (State.stagingToOpen_eq_some hw lowest),
          State.modStaging_done_atTake]
        rfl

end Sys2Proof.Machine
end
